-- ==== Sys2Proof/Word.lean ====
section
/-! DEFINITION. The widths of the values that travel (10_state R50) and the two kinds of floating-point value. -/

namespace Sys2Proof

/-- `u8` (00_scope R11). -/
abbrev Byte := BitVec 8

/-- `u16`. -/
abbrev U16 := BitVec 16

/-- `u24`: the ADC count. -/
abbrev U24 := BitVec 24

/-- `u32`. -/
abbrev U32 := BitVec 32

/-- An I2C device address, 7 bits (20_memory R60). -/
abbrev BusAddr := BitVec 7

/-- `f32`: a 32-bit pattern read as an IEEE-754 single (00_scope R11). It is carried as the pattern itself, as 40_codec R146
recommends, so that a reinterpretation changes no bit. -/
structure F32 where
  bits : U32
  deriving DecidableEq, Repr, Inhabited

/-- `FLOAT`: a value the Compensation Engine computes. The spec fixes neither its width nor its format (40_codec R161, 91 N13),
so the model carries a bare code and says nothing of the number it stands for. DESIGN CHOICE (log 19), safe. -/
structure FLOAT where
  code : Nat
  deriving DecidableEq, Repr, Inhabited

end Sys2Proof
end

