-- ==== Sys2Proof/Config.lean ====
section
/-! DEFINITION. What is fixed for the machine: the constants of the two profiles (00_scope R9), the named parameters the source
leaves open with the value the spec takes (00_scope R10), the platform, and the free values, which have no body. -/

namespace Sys2Proof

/-- The two device profiles (00_scope R3, 10_state R21). -/
inductive Profile where
  | TEMP
  | PRES
  deriving DecidableEq, Repr

/-- What a transport does with an issue while a transaction is in flight (70_reset_and_hazards R312). -/
inductive BusyIssuePolicy where
  /-- the default: the run has gone wrong -/
  | fault
  /-- the spec's own example of a documented platform: the old transaction is dropped and the new one starts -/
  | replace
  deriving DecidableEq, Repr

/-- `ADDR` (R9, 20_memory R61). -/
def Profile.addr : Profile → BusAddr
  | .TEMP => 0x77
  | .PRES => 0x40

/-- `CMD_CONVERT` (R9): start conversion, or measurement request. -/
def Profile.cmdConvert : Profile → Byte
  | .TEMP => 0x48
  | .PRES => 0xAC

/-- `T_CONV_MIN` (R9), milliseconds. -/
def Profile.tConvMin : Profile → Nat
  | .TEMP => 10
  | .PRES => 9

/-- `N_CAL` (R9): how many calibration words INIT reads. -/
def Profile.nCal : Profile → Nat
  | .TEMP => 8
  | .PRES => 7

namespace Config

/-- `CMD_RESET` of TEMP (R9); PRES has none. -/
def cmdReset : Byte := 0x1E

/-- `CMD_READ` of TEMP (R9), the ADC read. -/
def cmdAdcRead : Byte := 0x00

/-- `PROM_BASE` of TEMP (R9). -/
def promBase : Byte := 0xA0

/-- `MEM_ADDRS` of PRES (R9), in the order INIT reads them (42_blocking_ops R219). -/
def memAddrs : List Byte := [0x00, 0x01, 0x12, 0x13, 0x14, 0x15, 0x16]

/-- `T_OP_MAX` (R9), milliseconds. -/
def tOpMax : Nat := 200

/-- `NC_CODE` (R9): the equipment code that signals "not connected". -/
def ncCode : BitVec 6 := 63

/-- `N_ADC`, `N_PROM`, `N_MEM`, `N_MEAS` (R10): reply lengths. DESIGN CHOICE of the spec (log 15). -/
def nAdc : Nat := 3

/-- See `nAdc`. -/
def nProm : Nat := 2

/-- See `nAdc`. -/
def nMem : Nat := 3

/-- See `nAdc`. -/
def nMeas : Nat := 5

/-- The number of cells of the raw sample buffer (10_state R27, 30_encoding R118). -/
def bufSize : Nat := 5

/-- `STOP` (R10): the stop bit of every transaction of the block. DESIGN CHOICE of the spec (log 13). -/
def stop : Bool := true

/-- `TIME_BITS` (R10): `none` is the unbounded clock the spec takes. DESIGN CHOICE of the spec (log 14). -/
def timeBits : Option Nat := none

/-- `T_INIT_GAP` (R10), milliseconds. DESIGN CHOICE of the spec (log 17). -/
def tInitGap : Nat := 0

/-- `BUSY_ISSUE_POLICY` (70_reset_and_hazards R312), at its default (log 7). -/
def busyIssuePolicy : BusyIssuePolicy := .fault

/-- `MODE_LSB` (R10): PRESUMED by the spec (log 16). -/
def modeLsb : Nat := 0

/-- `DAY_LSB` (log 16). -/
def dayLsb : Nat := 2

/-- `MONTH_LSB` (log 16). -/
def monthLsb : Nat := 7

/-- `YEAR_LSB` (log 16). -/
def yearLsb : Nat := 11

/-- `YEAR_BASE` (log 16). -/
def yearBase : Nat := 2010

/-- `P_mode` of a vented-gauge device, 1.01325 bar as a binary32 pattern (10_state R34; log 18). -/
def pModeVented : F32 := ⟨0x3F81B22D⟩

/-- `P_mode` of a sealed-gauge device, 1.0 bar. -/
def pModeSealed : F32 := ⟨0x3F800000⟩

/-- `P_mode` of an absolute device, 0. -/
def pModeAbsolute : F32 := ⟨0x00000000⟩

/-- The default fluid density, 1029 kg/m³ (10_state R41, R47), as a binary32 pattern (log 22). -/
def defaultDensity : F32 := ⟨0x4480A000⟩

/-- The documented conversion factor for pascal, 100.0 (43_compensation R255), as a binary32 pattern (log 35). -/
def factorPascal : F32 := ⟨0x42C80000⟩

/-- The documented conversion factor for millibar, 1.0 (R255; log 35). -/
def factorMillibar : F32 := ⟨0x3F800000⟩

/-- The documented conversion factor for bar, 0.001 (R255), as the nearest binary32 pattern (log 35). -/
def factorBar : F32 := ⟨0x3A83126F⟩

/-- The factor of a call of `pressure()` that gives none: "default factor 1 ⇒ millibar" (R255). -/
def defaultFactor : F32 := factorMillibar

/-- `N_INST` and `BUS_OF` (R10) of the machine that `State.reset` describes: `s0 : TEMP on bus0`, `s1 : PRES on bus1`.
DESIGN CHOICE (log 1). -/
def platform : List (Profile × Nat) := [(.TEMP, 0), (.PRES, 1)]

/-- The number of buses of that machine. -/
def nBuses : Nat := 2

/-- Free value (log 5): cell `a` of the buffer, at a decode that reads it although no byte was received for it. -/
opaque freeByte : Nat → Nat → Byte

/-- Free value (log 5): a calibration word whose read did not end well. -/
opaque freeWord : Nat → U16

/-- Free value (log 5): the result of a compensation whose constants may not be used. -/
opaque freeFloat : Nat → FLOAT

/-- Free value (log 5): IS_INIT before any INIT. -/
opaque freeBool : Nat → Bool

/-- Free value (log 5): `errorCode()` between issue and completion. -/
opaque freeErrcode : Nat → Int

/-- Free value (log 5): `bytesTransferred()` between issue and completion. -/
opaque freeNbytes : Nat → Int

/-- Free value (log 4): what a timer reads when its stamp was never written, from the draw counter and the clock. -/
opaque freeElapsed : Nat → Nat → Nat

/-- The Compensation Engine's temperature arithmetic (43_compensation R240, R250), from `C[1]` to `C[5]` and `adc`.
Total and pure; width, order and rounding are open (log 19). -/
opaque compT : U16 → U16 → U16 → U16 → U16 → U16 → FLOAT

/-- The pressure arithmetic (R252), from `P_min`, `P_max`, `P_mode` and the signed count `P - 16384`. -/
opaque compP : F32 → F32 → F32 → Int → FLOAT

/-- The pressure device's temperature arithmetic (R254), from the signed count `(T_raw >> 4) - 24`. -/
opaque compPT : Int → FLOAT

/-- `pressure(conversion_factor)` (R255), from `P_bar` and the factor. -/
opaque pressure : FLOAT → F32 → FLOAT

/-- `depth_m` (R256), from the pressure in pascal and the fluid density. -/
opaque depth : FLOAT → F32 → FLOAT

/-- `altitude_m` (R257), from the pressure in millibar. -/
opaque altitude : FLOAT → FLOAT

end Config

end Sys2Proof
end

