-- ==== Sys2Proof/Syntax.lean ====
section
/-! DEFINITION. The operations: one constructor of `Instr` per row of spec/opcode_table.json, and the two forms in which an
operation reaches the machine. -/

namespace Sys2Proof

/-- The operations (30_encoding R100, R110). A host operation names the sensor instance it applies to (R101); a codec operation
holds its operands as values (R101); a bus command names the bus its frame goes out on and its stop bit (R108). -/
inductive Instr where
  /-- `ADVANCE`: one tick of the Read State Machine -/
  | advance (k : Nat)
  /-- `TICK`: the same, with the three-valued result -/
  | tick (k : Nat)
  /-- `QUERY`: the terminal-state query -/
  | query (k : Nat)
  /-- `RESET`: back to `Idle` -/
  | reset (k : Nat)
  /-- `GET_VALUE`: the physical reading -/
  | getValue (k : Nat)
  /-- `INIT`: fill the Calibration Store -/
  | init (k : Nat)
  /-- `IS_INIT`: the not-connected predicate -/
  | isInit (k : Nat)
  /-- `READ_BLOCKING`: the pressure device's single-shot read -/
  | readBlocking (k : Nat)
  /-- `DECODE16` -/
  | decode16 (hi lo : Byte)
  /-- `DECODE24` -/
  | decode24 (b0 b1 b2 : Byte)
  /-- `DECODE32` -/
  | decode32 (hi16 lo16 : U16)
  /-- `SPLIT32` -/
  | split32 (u : U32)
  /-- `BITCAST_F32` -/
  | bitcastF32 (u : U32)
  /-- `BITCAST_U32` -/
  | bitcastU32 (f : F32)
  /-- `FIELD_EQUIP` -/
  | fieldEquip (w0 : U16)
  /-- `FIELD_PLACE` -/
  | fieldPlace (w0 : U16)
  /-- `FIELD_FILE` -/
  | fieldFile (w1 : U16)
  /-- `FIELD_CODE` -/
  | fieldCode (w0 w1 : U16)
  /-- `FIELD_MODE` -/
  | fieldMode (s0 : U16)
  /-- `FIELD_DATE` -/
  | fieldDate (s0 : U16)
  /-- `T_RESET` -/
  | tReset (bus : Nat) (stop : Bool)
  /-- `T_CONVERT` -/
  | tConvert (bus : Nat) (stop : Bool)
  /-- `T_ADC_READ` -/
  | tAdcRead (bus : Nat) (stop : Bool)
  /-- `T_PROM_READ`: `i` is the coefficient's index, 0 to 7 -/
  | tPromRead (bus : Nat) (i : Nat) (stop : Bool)
  /-- `P_MEASURE` -/
  | pMeasure (bus : Nat) (stop : Bool)
  /-- `P_MEM_CUST0` -/
  | pMemCust0 (bus : Nat) (stop : Bool)
  /-- `P_MEM_CUST1` -/
  | pMemCust1 (bus : Nat) (stop : Bool)
  /-- `P_MEM_SCALING0` -/
  | pMemScaling0 (bus : Nat) (stop : Bool)
  /-- `P_MEM_PMIN_HI` -/
  | pMemPminHi (bus : Nat) (stop : Bool)
  /-- `P_MEM_PMIN_LO` -/
  | pMemPminLo (bus : Nat) (stop : Bool)
  /-- `P_MEM_PMAX_HI` -/
  | pMemPmaxHi (bus : Nat) (stop : Bool)
  /-- `P_MEM_PMAX_LO` -/
  | pMemPmaxLo (bus : Nat) (stop : Bool)
  deriving DecidableEq, Repr

/-- A write frame, format `BUSW` (30_encoding R108): address, one command byte, stop bit. -/
structure Frame where
  addr : BusAddr
  cmd : Byte
  stop : Bool
  deriving DecidableEq, Repr

/-- What the decoder is given. -/
inductive Call where
  /-- the pair of opcode bytes and instance (30_encoding R101): the instance stands beside the bytes, not in them -/
  | bytes (k : Nat) (bs : List Byte)
  /-- one write frame on one bus -/
  | frame (bus : Nat) (f : Frame)
  deriving DecidableEq, Repr

end Sys2Proof
end

