-- ==== Sys2Proof/WellFormed.lean ====
section
/-! DEFINITION. Which instructions are well formed. -/

namespace Sys2Proof

/-- The one operand whose Lean type is wider than its field is the coefficient's index of `T_PROM_READ`: "8 entries at
+0,2,4,...,14" (30_encoding R110). Instances and buses are model arguments with no bound of their own (00_scope R10); whether one
exists is a question to the state. -/
def Instr.wellFormed : Instr → Bool
  | .advance _ | .tick _ | .query _ | .reset _ | .getValue _ | .init _ | .isInit _ | .readBlocking _ => true
  | .decode16 _ _ | .decode24 _ _ _ | .decode32 _ _ | .split32 _ | .bitcastF32 _ | .bitcastU32 _ => true
  | .fieldEquip _ | .fieldPlace _ | .fieldFile _ | .fieldCode _ _ | .fieldMode _ | .fieldDate _ => true
  | .tReset _ _ | .tConvert _ _ | .tAdcRead _ _ => true
  | .tPromRead _ i _ => decide (i < 8)
  | .pMeasure _ _ | .pMemCust0 _ _ | .pMemCust1 _ _ | .pMemScaling0 _ _ => true
  | .pMemPminHi _ _ | .pMemPminLo _ _ | .pMemPmaxHi _ _ | .pMemPmaxLo _ _ => true

end Sys2Proof
end

