-- ==== Sys2Proof/Decode.lean ====
section
/-! DEFINITION. The decoder, total on any bytes and any frame, rejecting by name; the encoder, written from the same tables; and
the reading of a bare word of spec/opcode_table.json. -/

namespace Sys2Proof

/-- Why the decoder refuses. -/
inductive DecodeError where
  /-- there is no opcode byte -/
  | noOpcode
  /-- an opcode outside 30_encoding R102: reserved -/
  | reservedOpcode (op : Byte)
  /-- a codec operation with fewer operand bytes than its format has -/
  | missingOperands (op : Byte)
  /-- a device address the block never generates (20_memory R61) -/
  | unknownDevice (addr : BusAddr)
  /-- a command byte outside the map of that device (20_memory R62, R63) -/
  | unknownCommand (addr : BusAddr) (cmd : Byte)
  deriving DecidableEq, Repr

/-- What decoding answers: the instruction and the bytes after it. -/
abbrev Decoded := Except DecodeError (Instr × List Byte)

/-- The `u16` operand whose bytes are `hi lo`: operand bytes are big-endian, as all else is (20_memory R71).
DESIGN CHOICE (log 10). -/
def operand16 (hi lo : Byte) : U16 := hi ++ lo

/-- The `u32` operand whose bytes are `a b c d`. -/
def operand32 (a b c d : Byte) : U32 := (a ++ b : U16) ++ (c ++ d : U16)

/-- Formats with a 2-byte operand list. -/
def decodeOperands2 (op : Byte) (bs : List Byte) (f : Byte → Byte → Instr) : Decoded :=
  match bs with
  | a :: b :: rest => .ok (f a b, rest)
  | _ => .error (.missingOperands op)

/-- Formats with a 3-byte operand list. -/
def decodeOperands3 (op : Byte) (bs : List Byte) (f : Byte → Byte → Byte → Instr) : Decoded :=
  match bs with
  | a :: b :: c :: rest => .ok (f a b c, rest)
  | _ => .error (.missingOperands op)

/-- Formats with a 4-byte operand list. -/
def decodeOperands4 (op : Byte) (bs : List Byte) (f : Byte → Byte → Byte → Byte → Instr) : Decoded :=
  match bs with
  | a :: b :: c :: d :: rest => .ok (f a b c d, rest)
  | _ => .error (.missingOperands op)

/-- The opcode table of 30_encoding R102, for the instance `k`; `bs` are the bytes after the opcode. -/
def decodeOpcode (k : Nat) (op : Byte) (bs : List Byte) : Decoded :=
  match op.toNat with
  | 0x01 => .ok (.advance k, bs)
  | 0x02 => .ok (.tick k, bs)
  | 0x03 => .ok (.query k, bs)
  | 0x04 => .ok (.reset k, bs)
  | 0x05 => .ok (.getValue k, bs)
  | 0x06 => .ok (.init k, bs)
  | 0x07 => .ok (.isInit k, bs)
  | 0x08 => .ok (.readBlocking k, bs)
  | 0x10 => decodeOperands2 op bs fun a b => .decode16 a b
  | 0x11 => decodeOperands3 op bs fun a b c => .decode24 a b c
  | 0x12 => decodeOperands4 op bs fun a b c d => .decode32 (operand16 a b) (operand16 c d)
  | 0x13 => decodeOperands4 op bs fun a b c d => .split32 (operand32 a b c d)
  | 0x14 => decodeOperands4 op bs fun a b c d => .bitcastF32 (operand32 a b c d)
  | 0x15 => decodeOperands4 op bs fun a b c d => .bitcastU32 ⟨operand32 a b c d⟩
  | 0x18 => decodeOperands2 op bs fun a b => .fieldEquip (operand16 a b)
  | 0x19 => decodeOperands2 op bs fun a b => .fieldPlace (operand16 a b)
  | 0x1A => decodeOperands2 op bs fun a b => .fieldFile (operand16 a b)
  | 0x1B => decodeOperands4 op bs fun a b c d => .fieldCode (operand16 a b) (operand16 c d)
  | 0x1C => decodeOperands2 op bs fun a b => .fieldMode (operand16 a b)
  | 0x1D => decodeOperands2 op bs fun a b => .fieldDate (operand16 a b)
  | _ => .error (.reservedOpcode op)

/-- The command bytes of the TEMP device (20_memory R62); `T_PROM_READ` is match 0xA0, mask 0xF1, `i = cmd[3:1]` (30_encoding
R110). -/
def decodeTempCommand (bus : Nat) (cmd : Byte) (stop : Bool) : Except DecodeError Instr :=
  if cmd = 0x1E then .ok (.tReset bus stop)
  else if cmd = 0x48 then .ok (.tConvert bus stop)
  else if cmd = 0x00 then .ok (.tAdcRead bus stop)
  else if cmd &&& 0xF1 = 0xA0 then .ok (.tPromRead bus (cmd.extractLsb' 1 3).toNat stop)
  else .error (.unknownCommand 0x77 cmd)

/-- The command bytes of the PRES device (20_memory R63). -/
def decodePresCommand (bus : Nat) (cmd : Byte) (stop : Bool) : Except DecodeError Instr :=
  match cmd.toNat with
  | 0xAC => .ok (.pMeasure bus stop)
  | 0x00 => .ok (.pMemCust0 bus stop)
  | 0x01 => .ok (.pMemCust1 bus stop)
  | 0x12 => .ok (.pMemScaling0 bus stop)
  | 0x13 => .ok (.pMemPminHi bus stop)
  | 0x14 => .ok (.pMemPminLo bus stop)
  | 0x15 => .ok (.pMemPmaxHi bus stop)
  | 0x16 => .ok (.pMemPmaxLo bus stop)
  | _ => .error (.unknownCommand 0x40 cmd)

/-- Bus traffic: "must key on the device address first: 0x00 and 0xAC mean different things on the two devices" (30_encoding
R110). -/
def decodeFrame (bus : Nat) (f : Frame) : Except DecodeError Instr :=
  if f.addr = 0x77 then decodeTempCommand bus f.cmd f.stop
  else if f.addr = 0x40 then decodePresCommand bus f.cmd f.stop
  else .error (.unknownDevice f.addr)

/-- The decoder. A byte call may hold several operations for one instance, one after the other, as 30_encoding R128 encodes a
script; the bytes that are left are the second component. -/
def decode : Call → Decoded
  | .bytes _ [] => .error .noOpcode
  | .bytes k (op :: bs) => decodeOpcode k op bs
  | .frame bus f =>
    match decodeFrame bus f with
    | .ok i => .ok (i, [])
    | .error e => .error e

/-- The bytes of a `u16`, high byte first. -/
def bytes16 (w : U16) : List Byte := [w.extractLsb' 8 8, w.extractLsb' 0 8]

/-- The bytes of a `u32`, high byte first. -/
def bytes32 (u : U32) : List Byte := [u.extractLsb' 24 8, u.extractLsb' 16 8, u.extractLsb' 8 8, u.extractLsb' 0 8]

/-- The encoder. The instance beside the bytes of a codec operation is of no account; the encoder writes 0. -/
def encode : Instr → Call
  | .advance k => .bytes k [0x01]
  | .tick k => .bytes k [0x02]
  | .query k => .bytes k [0x03]
  | .reset k => .bytes k [0x04]
  | .getValue k => .bytes k [0x05]
  | .init k => .bytes k [0x06]
  | .isInit k => .bytes k [0x07]
  | .readBlocking k => .bytes k [0x08]
  | .decode16 hi lo => .bytes 0 [0x10, hi, lo]
  | .decode24 b0 b1 b2 => .bytes 0 [0x11, b0, b1, b2]
  | .decode32 hi16 lo16 => .bytes 0 (0x12 :: bytes16 hi16 ++ bytes16 lo16)
  | .split32 u => .bytes 0 (0x13 :: bytes32 u)
  | .bitcastF32 u => .bytes 0 (0x14 :: bytes32 u)
  | .bitcastU32 f => .bytes 0 (0x15 :: bytes32 f.bits)
  | .fieldEquip w0 => .bytes 0 (0x18 :: bytes16 w0)
  | .fieldPlace w0 => .bytes 0 (0x19 :: bytes16 w0)
  | .fieldFile w1 => .bytes 0 (0x1A :: bytes16 w1)
  | .fieldCode w0 w1 => .bytes 0 (0x1B :: bytes16 w0 ++ bytes16 w1)
  | .fieldMode s0 => .bytes 0 (0x1C :: bytes16 s0)
  | .fieldDate s0 => .bytes 0 (0x1D :: bytes16 s0)
  | .tReset bus stop => .frame bus ⟨0x77, 0x1E, stop⟩
  | .tConvert bus stop => .frame bus ⟨0x77, 0x48, stop⟩
  | .tAdcRead bus stop => .frame bus ⟨0x77, 0x00, stop⟩
  | .tPromRead bus i stop => .frame bus ⟨0x77, 0xA0 + 2 * BitVec.ofNat 8 i, stop⟩
  | .pMeasure bus stop => .frame bus ⟨0x40, 0xAC, stop⟩
  | .pMemCust0 bus stop => .frame bus ⟨0x40, 0x00, stop⟩
  | .pMemCust1 bus stop => .frame bus ⟨0x40, 0x01, stop⟩
  | .pMemScaling0 bus stop => .frame bus ⟨0x40, 0x12, stop⟩
  | .pMemPminHi bus stop => .frame bus ⟨0x40, 0x13, stop⟩
  | .pMemPminLo bus stop => .frame bus ⟨0x40, 0x14, stop⟩
  | .pMemPmaxHi bus stop => .frame bus ⟨0x40, 0x15, stop⟩
  | .pMemPmaxLo bus stop => .frame bus ⟨0x40, 0x16, stop⟩

/-- The length of the reply to a bus command (30_encoding R127: "a decoder tells the length from the last command byte written to
that device"; R114 to R117); none where there is no reply. -/
def replyLength : Instr → Option Nat
  | .tAdcRead _ _ => some 3
  | .tPromRead _ _ _ => some 2
  | .pMeasure _ _ => some 5
  | .pMemCust0 _ _ | .pMemCust1 _ _ | .pMemScaling0 _ _ | .pMemPminHi _ _ | .pMemPminLo _ _ | .pMemPmaxHi _ _
  | .pMemPmaxLo _ _ => some 3
  | .tReset _ _ | .tConvert _ _ => none
  | .advance _ | .tick _ | .query _ | .reset _ | .getValue _ | .init _ | .isInit _ | .readBlocking _ => none
  | .decode16 _ _ | .decode24 _ _ _ | .decode32 _ _ | .split32 _ | .bitcastF32 _ | .bitcastU32 _ => none
  | .fieldEquip _ | .fieldPlace _ | .fieldFile _ | .fieldCode _ _ | .fieldMode _ | .fieldDate _ => none

/-- How many operand bytes follow an opcode: the operand lists of 40_codec R140 to R155. -/
def operandBytes (op : Byte) : Nat :=
  match op.toNat with
  | 0x10 | 0x18 | 0x19 | 0x1A | 0x1C | 0x1D => 2
  | 0x11 => 3
  | 0x12 | 0x13 | 0x14 | 0x15 | 0x1B => 4
  | _ => 0

/-- Byte `j` of the table's word `w` of `nbits` bits: bits `8j+7` to `8j`, and 0 above `nbits`. -/
def tableByte (nbits w j : Nat) : Byte := BitVec.ofNat 8 (w % 2 ^ nbits / 2 ^ (8 * j))

/-- The instance a bare opcode of the table is run on: the first of `Config.platform` that admits it (log 12). -/
def tableInstance (op : Byte) : Nat := if op = 0x07 ∨ op = 0x08 then 1 else 0

/-- Whether the decoder reads this call. -/
def decodes (c : Call) : Bool :=
  match decode c with
  | .ok _ => true
  | .error _ => false

/-- The call a bare word of the opcode table stands for. The table's rows lie in three code spaces that 8 bits do not tell apart
(the opcodes of R102 and the command bytes of the two devices), so the word is offered as an opcode with zero operands, then as a
frame to the PRES device, then as a frame to the TEMP device, and the first one the decoder reads is taken. DESIGN CHOICE (log
12); it concerns the host's question about the table only, no run of the machine. -/
def tableCall (nbits w : Nat) : Call :=
  let op := tableByte nbits w 0
  let operands := (List.range (operandBytes op)).map fun j => tableByte nbits w (j + 1)
  let asOpcode : Call := .bytes (tableInstance op) (op :: operands)
  let asPres : Call := .frame 1 ⟨0x40, op, Config.stop⟩
  let asTemp : Call := .frame 0 ⟨0x77, op, Config.stop⟩
  if decodes asOpcode then asOpcode
  else if decodes asPres then asPres
  else if decodes asTemp then asTemp
  else asOpcode

/-- The instruction the decoder reads from a word of spec/opcode_table.json. -/
def decodeTableWord (nbits w : Nat) : Option Instr :=
  match decode (tableCall nbits w) with
  | .ok (i, _) => some i
  | .error _ => none

end Sys2Proof
end

