-- ==== Sys2Proof/Machine/State.lean ====
section
/-! DEFINITION. The state of the machine (10_state), the lines of the script, the reasons a step can stop, and the state after
reset. -/

namespace Sys2Proof.Machine

/-- The ReadState, the block's pc (10_state R23), in the order of its codes (30_encoding R103). -/
inductive ReadState where
  | Idle
  | StartConversion
  | WaitConversion
  | RequestData
  | WaitData
  | Complete
  | Error
  deriving DecidableEq, Repr

/-- The tick result (30_encoding R104). -/
inductive TickResult where
  | Running
  | Success
  | Failure
  deriving DecidableEq, Repr

/-- Space (c) of 20_memory R60, the raw sample buffer of one instance: the cells that hold a value, as (address, byte) pairs with
addresses rising and below 5. A cell that is not listed holds no value (`unwritten`, 10_state R47). -/
abbrev Memory := List Host.Cell

/-- One 16-bit word of the Calibration Store. -/
inductive CalWord where
  /-- no INIT has written it (10_state R47) -/
  | unwritten
  /-- decoded from bytes that were all received -/
  | word (v : U16)
  /-- an unspecified value, drawn once and kept: its read did not end `Done`, or bytes of it were not received
  (42_blocking_ops R216, R219; 20_memory R74) -/
  | drawn (v : U16)
  deriving DecidableEq, Repr

/-- The raw words of a PRES instance, `W[a]` by memory address (10_state R31). -/
structure PresWords where
  w00 : CalWord
  w01 : CalWord
  w12 : CalWord
  w13 : CalWord
  w14 : CalWord
  w15 : CalWord
  w16 : CalWord
  deriving DecidableEq, Repr

/-- The decoded fields of a PRES instance (10_state R31). -/
structure PresFields where
  equipment : BitVec 6
  place : BitVec 9
  file : U16
  code : U32
  mode : BitVec 2
  year : Nat
  month : Nat
  day : Nat
  P_min : F32
  P_max : F32
  P_mode : F32
  deriving DecidableEq, Repr

/-- The Calibration Store (10_state R30, R31). An instance uses the part of its profile; the other part stays unwritten (log 31). -/
structure Cal where
  C : Vector CalWord 8
  W : PresWords
  fields : Option PresFields
  deriving DecidableEq, Repr

/-- The raw values of one PRES measurement (10_state R28). -/
structure RawPres where
  status : Byte
  P : U16
  T_raw : U16
  deriving DecidableEq, Repr

/-- The PhysicalReading (10_state R29). -/
inductive Reading where
  | temp (temperature_C : FLOAT)
  | pres (P_bar temperature_C : FLOAT)
  deriving DecidableEq, Repr

/-- A sensor instance (10_state R20). `none` is the spec's `unwritten` (log 4). -/
structure Sensor where
  profile : Profile
  bus : Nat
  rs : ReadState
  tOp : Option Nat
  tConv : Option Nat
  buf : Memory
  rawD1 : Option U24
  rawPres : Option RawPres
  val : Option Reading
  cal : Cal
  initOk : Bool
  deriving DecidableEq, Repr

/-- A transaction record (10_state R37). -/
inductive Transaction where
  | write (addr : BusAddr) (bytes : List Byte) (stop : Bool)
  | read (addr : BusAddr) (dest : Nat) (n : Nat) (stop : Bool)
  deriving DecidableEq, Repr

/-- A Bus Transport (10_state R36, R37). -/
structure Transport where
  inflight : Option Transaction
  finished : Bool
  error : Bool
  errcode : Int
  nbytes : Int
  deriving DecidableEq, Repr

/-- What the initialisation report of a PRES instance carries (42_blocking_ops R222). -/
structure IdentityReport where
  code : U32
  equipment : BitVec 6
  place : BitVec 9
  file : U16
  mode : BitVec 2
  year : Nat
  month : Nat
  day : Nat
  P_min : F32
  P_max : F32
  deriving DecidableEq, Repr

/-- A diagnostic event (10_state R44). -/
inductive DiagEvent where
  | initReport (content : Option IdentityReport)
  | busErrorSeen (code : Int)
  | timeoutSeen
  deriving DecidableEq, Repr

/-- What an operation returned (the results of spec/opcode_table.json). -/
inductive Result where
  /-- nothing -/
  | none
  | readState (r : ReadState)
  | tick (t : TickResult)
  | query (r : ReadState) (terminal : Bool)
  | value (v : Reading)
  | bool (b : Bool)
  | u16 (v : U16)
  | u24 (v : U24)
  | u32 (v : U32)
  | pair (hi16 lo16 : U16)
  | f32 (f : F32)
  | field6 (v : BitVec 6)
  | field9 (v : BitVec 9)
  | field2 (v : BitVec 2)
  | date (year month day : Nat)
  | float (v : FLOAT)
  deriving DecidableEq, Repr

/-- Where a blocking operation stands between two micro-steps (42_blocking_ops R212). `w` numbers the calibration words from 0. -/
inductive Phase where
  /-- INIT: the bounded wait of the reset pulse (R215) -/
  | resetWait
  /-- INIT: the delay after it -/
  | resetGap
  /-- INIT: about to issue the command of word `w` (R216, R219) -/
  | cmdIssue (w : Nat)
  /-- INIT: the bounded wait of that command -/
  | cmdWait (w : Nat)
  /-- INIT: the delay after it -/
  | cmdGap (w : Nat)
  /-- INIT: about to issue the read of word `w` -/
  | dataIssue (w : Nat)
  /-- INIT: the bounded wait of that read -/
  | dataWait (w : Nat)
  /-- READ_BLOCKING: phase 2 of R226 -/
  | measureWait
  /-- READ_BLOCKING: phase 3 -/
  | measureDelay
  /-- READ_BLOCKING: phase 5 -/
  | measureData
  deriving DecidableEq, Repr

/-- A blocking operation in progress; `total` is INIT's sum of transferred bytes (R210). -/
structure Blocking where
  sensor : Nat
  phase : Phase
  total : Int
  deriving DecidableEq, Repr

/-- How a transport completes its transaction (20_memory R68). -/
inductive Completion where
  /-- a write, without error, `n` bytes transferred -/
  | okWrite (n : Nat)
  /-- a read, without error, with the bytes received -/
  | okRead (data : List Byte)
  /-- with an error code and a byte count -/
  | err (code : Int) (n : Nat)
  deriving DecidableEq, Repr

/-- The derived quantities (43_compensation R255 to R257). -/
inductive Derived where
  /-- `pressure(conversion_factor)`; without a factor, `pressure()` at the default factor -/
  | pressure (factor : Option F32)
  | depth
  | altitude
  deriving DecidableEq, Repr

/-- A line of the script: one step of one agent (30_encoding R128, 00_scope R19; log 8). -/
inductive Line where
  /-- the clock advances by `d` milliseconds -/
  | clock (d : Nat)
  /-- transport `b` completes its transaction -/
  | bus (b : Nat) (c : Completion)
  /-- the block takes a micro-step of the blocking operation -/
  | block
  /-- the host invokes operations -/
  | host (c : Call)
  /-- the host constructs an instance (70_reset_and_hazards R300) -/
  | construct (p : Profile) (b : Nat)
  /-- the caller sets the fluid density (43_compensation R256) -/
  | setDensity (v : F32)
  /-- a consumer asks for a derived quantity of an instance -/
  | derive (k : Nat) (q : Derived)
  deriving DecidableEq, Repr

/-- The state. -/
structure State where
  sensors : List Sensor
  buses : List Transport
  CLK : Nat
  fluidDensity : F32
  diag : List DiagEvent
  FAULT : Bool
  blk : Option Blocking
  script : List Line
  ret : Result
  draws : Nat
  deriving DecidableEq, Repr

/-- Why a step stops with a fault. -/
inductive Fault where
  /-- A transaction is issued on a busy bus (20_memory R67, 70_reset_and_hazards R312): raised by `issue`. Safe: the source says
  nothing of what the transport does. -/
  | busyIssue
  /-- `S.val` is read before any read completed (10_state R48, 41_sequencer R190): raised by GET_VALUE and the derived quantities.
  Safe. -/
  | unwrittenValue
  /-- The run's FAULT mark is set (10_state R45): raised by `step`. Safe: "no claim holds of the run after it". -/
  | runMarked
  /-- A read completes with more bytes than the buffer has cells, which 20_memory R70 says cannot happen: raised by `complete`.
  Safe. -/
  | bufferOverflow
  deriving DecidableEq, Repr

/-- Why a step is refused. -/
inductive Refusal where
  /-- An instruction without a meaning: raised by no arm of `exec`. Safe. -/
  | notModelled (mnemonic : String)
  /-- The decoder rejects the call (30_encoding R102, R126): raised by `step`. Safe. -/
  | undecodable (e : DecodeError)
  /-- The operation names an instance the platform does not have (00_scope R10): raised by `onSensor`. Safe. -/
  | noSuchSensor
  /-- A bus number the platform does not have: raised by `onBus`. Safe. -/
  | noSuchBus
  /-- The instance's profile does not admit the operation (41_sequencer R171): raised by `onSensor`. Safe. -/
  | notAdmitted
  /-- INIT after an INIT that returned true (42_blocking_ops R211): raised by `execInit`. Safe. -/
  | alreadyInitialised
  /-- A transport with nothing in flight has no completion step (20_memory R68): raised by `complete`. Safe. -/
  | nothingInFlight
  /-- A completion 20_memory R68 does not list: of the other kind, or with more bytes than were asked for: raised by `complete`.
  Safe. -/
  | impossibleCompletion
  deriving DecidableEq, Repr

/-- The words of a PRES store nobody has written. -/
def PresWords.unwritten : PresWords :=
  ⟨.unwritten, .unwritten, .unwritten, .unwritten, .unwritten, .unwritten, .unwritten⟩

/-- A Calibration Store nobody has written (10_state R47). -/
def Cal.unwritten : Cal := ⟨Vector.replicate 8 .unwritten, .unwritten, none⟩

/-- An instance right after its construction (10_state R47, 70_reset_and_hazards R300). -/
def Sensor.construct (p : Profile) (b : Nat) : Sensor where
  profile := p
  bus := b
  rs := .Idle
  tOp := none
  tConv := none
  buf := []
  rawD1 := none
  rawPres := none
  val := none
  cal := .unwritten
  initOk := false

/-- A transport at launch: nothing in flight (10_state R47); its status values are unspecified there and named here. DESIGN CHOICE
(log 2). -/
def Transport.launch : Transport := ⟨none, false, false, 0, 0⟩

/-- The state after reset of a platform with `n` buses and the given instances (00_scope R10, 10_state R47). -/
def State.launch (platform : List (Profile × Nat)) (n : Nat) : State where
  sensors := platform.map fun pb => Sensor.construct pb.1 pb.2
  buses := List.replicate n Transport.launch
  CLK := 0
  fluidDensity := Config.defaultDensity
  diag := []
  FAULT := false
  blk := none
  script := []
  ret := .none
  draws := 0

/-- The state after reset, of the platform in Config (log 1). -/
def State.reset : State := State.launch Config.platform Config.nBuses

end Sys2Proof.Machine
end

