-- ==== Sys2Proof/Machine/Memory.lean ====
section
/-! DEFINITION. The operations on a raw sample buffer. -/

namespace Sys2Proof.Machine

/-- What an unlisted cell reads as: no value (10_state R47; log 27). -/
def Memory.unlisted : Option Byte := none

/-- The value of cell `a`. -/
def Memory.read : Memory → Nat → Option Byte
  | [], _ => Memory.unlisted
  | (a', v) :: m, a => if a' = a then some v else Memory.read m a

/-- Cell `a` receives `v`. -/
def Memory.write : Memory → Nat → Byte → Memory
  | [], a, v => [(a, v)]
  | (a', v') :: m, a, v =>
    if a < a' then (a, v) :: (a', v') :: m
    else if a = a' then (a, v) :: m
    else (a', v') :: Memory.write m a v

/-- The value of cell `a` is no longer known. -/
def Memory.erase : Memory → Nat → Memory
  | [], _ => []
  | (a', v') :: m, a => if a' = a then m else (a', v') :: Memory.erase m a

/-- Cells `a`, `a+1`, ... receive the bytes of `data` (20_memory R70: "filled from cell 0 upward in wire order"). -/
def Memory.writeFrom : Memory → Nat → List Byte → Memory
  | m, _, [] => m
  | m, a, v :: data => Memory.writeFrom (Memory.write m a v) (a + 1) data

/-- The `n` cells from `a` on are no longer known. -/
def Memory.eraseFrom : Memory → Nat → Nat → Memory
  | m, _, 0 => m
  | m, a, n + 1 => Memory.eraseFrom (Memory.erase m a) (a + 1) n

/-- The addresses of the list rise strictly, all at least `low`, and lie below the buffer's size. -/
def Memory.risingFrom : Nat → Memory → Bool
  | _, [] => true
  | low, (a, _) :: m => decide (low ≤ a) && decide (a < Config.bufSize) && Memory.risingFrom (a + 1) m

/-- The canonical form. No listed cell can equal what an unlisted one reads as, since that is no value. -/
def Memory.wf (m : Memory) : Bool := Memory.risingFrom 0 m

/-- A cell as a decode step sees it: a cell without a value is a free value (20_memory R74; log 21). -/
def Memory.cell (draw : Nat) (m : Memory) (a : Nat) : Byte :=
  match Memory.read m a with
  | some v => v
  | none => Config.freeByte draw a

/-- `MemRead(a, n)` (00_scope R14): `n` cells from `a` on as one unsigned number, the first most significant. -/
def Memory.memRead (draw : Nat) (m : Memory) : Nat → Nat → Nat
  | _, 0 => 0
  | a, n + 1 => (Memory.cell draw m a).toNat * 2 ^ (8 * n) + Memory.memRead draw m (a + 1) n

end Sys2Proof.Machine
end

