-- ==== Sys2Proof/Machine/Ops.lean ====
section
/-! DEFINITION. The shared operations over the state: access to instances and buses, issuing a transaction, diagnostics, results,
entry to the state Error and the return from it. -/

namespace Sys2Proof.Machine

/-- Go on from a next state; a fault or a refusal stays. -/
def andThen (o : Host.Outcome State Fault Refusal) (f : State → Host.Outcome State Fault Refusal) :
    Host.Outcome State Fault Refusal :=
  match o with
  | .next s => f s
  | .fault r => .fault r
  | .refused r => .refused r

/-- Instance `k` becomes `f` of it. -/
def updSensor (k : Nat) (f : Sensor → Sensor) (s : State) : State := { s with sensors := s.sensors.modify k f }

/-- Bus `b` becomes `T`. -/
def setBus (b : Nat) (T : Transport) (s : State) : State := { s with buses := s.buses.set b T }

/-- The operation returns `r`. -/
def setRet (r : Result) (s : State) : State := { s with ret := r }

/-- The blocking operation stands at `B`, or none is running. -/
def setBlk (B : Option Blocking) (s : State) : State := { s with blk := B }

/-- One more free value has been drawn. -/
def nextDraw (s : State) : State := { s with draws := s.draws + 1 }

/-- One diagnostic event is emitted (10_state R44). -/
def emitDiag (e : DiagEvent) (s : State) : State := { s with diag := s.diag ++ [e] }

/-- `pc <- r` (00_scope R13). -/
def setPc (k : Nat) (r : ReadState) (s : State) : State := updSensor k (fun S => { S with rs := r }) s

/-- "reset operation timer": the stamp is the sample of this step (10_state R25). -/
def stampOp (k : Nat) (s : State) : State := updSensor k (fun S => { S with tOp := some s.CLK }) s

/-- "reset conversion timer" (10_state R26). -/
def stampConv (k : Nat) (s : State) : State := updSensor k (fun S => { S with tConv := some s.CLK }) s

/-- The admission column of 30_encoding R102, profile TEMP only. -/
def admitTemp (p : Profile) : Bool :=
  match p with
  | .TEMP => true
  | .PRES => false

/-- Profile PRES only. -/
def admitPres (p : Profile) : Bool :=
  match p with
  | .TEMP => false
  | .PRES => true

/-- Both profiles. -/
def admitBoth (_ : Profile) : Bool := true

/-- An operation on instance `k`: "operations invoked on a profile that does not admitted them are refused" (41_sequencer R171). -/
def onSensor (k : Nat) (admitted : Profile → Bool) (s : State) (f : Sensor → Host.Outcome State Fault Refusal) :
    Host.Outcome State Fault Refusal :=
  match s.sensors[k]? with
  | none => .refused .noSuchSensor
  | some S => if admitted S.profile then f S else .refused .notAdmitted

/-- An access to bus `b`. -/
def onBus (b : Nat) (s : State) (f : Transport → Host.Outcome State Fault Refusal) : Host.Outcome State Fault Refusal :=
  match s.buses[b]? with
  | none => .refused .noSuchBus
  | some T => f T

/-- The transport right after an issue (20_memory R67): `errcode` and `nbytes` are unspecified until completion. -/
def issued (draw : Nat) (t : Transaction) : Transport where
  inflight := some t
  finished := false
  error := false
  errcode := Config.freeErrcode draw
  nbytes := Config.freeNbytes draw

/-- `BusWrite` and `BusRead` (20_memory R67), with the policy for a busy bus (70_reset_and_hazards R312). -/
def issue (b : Nat) (t : Transaction) (s : State) : Host.Outcome State Fault Refusal :=
  onBus b s fun T =>
    if T.inflight.isSome && decide (Config.busyIssuePolicy = .fault) then .fault .busyIssue
    else .next (nextDraw (setBus b (issued s.draws t) s))

/-- `BusWrite(T, addr, [cmd], STOP)` for an instance (30_encoding R108). -/
def busWrite (S : Sensor) (cmd : Byte) (s : State) : Host.Outcome State Fault Refusal :=
  issue S.bus (.write S.profile.addr [cmd] Config.stop) s

/-- `BusRead(T, addr, S, n, STOP)` for instance `k` (30_encoding R109). -/
def busRead (k : Nat) (S : Sensor) (n : Nat) (s : State) : Host.Outcome State Fault Refusal :=
  issue S.bus (.read S.profile.addr k n Config.stop) s

/-- A bus command row taken as an instruction: its frame is issued (30_encoding R108). -/
def issueFrame (b : Nat) (f : Frame) (s : State) : Host.Outcome State Fault Refusal :=
  andThen (issue b (.write f.addr [f.cmd] f.stop) s) fun s' => .next (setRet .none s')

/-- TAKING AN EXCEPTION: `raise BusTimeout` or `raise BusError` inside ADVANCE (60_exceptions R272, 00_scope R15): one diagnostic
event, `pc <- Error`. "Nothing is saved", "Nothing else changes". -/
def raiseError (k : Nat) (e : DiagEvent) (s : State) : State := setPc k .Error (emitDiag e s)

/-- THE RETURN FROM IT (60_exceptions R274): "it sets pc <- Idle and restores nothing, because nothing was saved". -/
def returnToIdle (k : Nat) (s : State) : State := setPc k .Idle s

end Sys2Proof.Machine
end

