-- ==== Sys2Proof/Machine/Operands.lean ====
section
/-! DEFINITION. The Register Codec as functions (40_codec), the reply frames (30_encoding R114 to R117) and the assembly of
command bytes (R110). -/

namespace Sys2Proof.Machine

/-- `DECODE16(hi, lo) = hi ++ lo` (40_codec R140). -/
def decode16 (hi lo : Byte) : U16 := hi ++ lo

/-- `DECODE24(b0, b1, b2) = b0 ++ b1 ++ b2` (R142). -/
def decode24 (b0 b1 b2 : Byte) : U24 := b0 ++ b1 ++ b2

/-- `DECODE32(hi16, lo16) = hi16 ++ lo16` (R144). -/
def decode32 (hi16 lo16 : U16) : U32 := hi16 ++ lo16

/-- `SPLIT32(u) = (u[31:16], u[15:0])` (R145). -/
def split32 (u : U32) : U16 × U16 := (u.extractLsb' 16 16, u.extractLsb' 0 16)

/-- `BITCAST_F32` (R146): no bit changes. -/
def bitcastF32 (u : U32) : F32 := ⟨u⟩

/-- `BITCAST_U32` (R147). -/
def bitcastU32 (f : F32) : U32 := f.bits

/-- `FIELD_EQUIP(w0) = w0[15:10]` (R150). -/
def fieldEquip (w0 : U16) : BitVec 6 := w0.extractLsb' 10 6

/-- `FIELD_PLACE(w0) = w0[8:0]` (R151). -/
def fieldPlace (w0 : U16) : BitVec 9 := w0.extractLsb' 0 9

/-- `FIELD_FILE(w1) = w1` (R152). -/
def fieldFile (w1 : U16) : U16 := w1

/-- `FIELD_CODE(w0, w1) = DECODE32(w0, w1)` (R153). -/
def fieldCode (w0 w1 : U16) : U32 := decode32 w0 w1

/-- `FIELD_MODE(s0) = s0[MODE_LSB+1 : MODE_LSB]` (R154; log 16). -/
def fieldMode (s0 : U16) : BitVec 2 := s0.extractLsb' Config.modeLsb 2

/-- The year of `FIELD_DATE` (R155; log 16). -/
def fieldYear (s0 : U16) : Nat := (s0.extractLsb' Config.yearLsb 5).toNat + Config.yearBase

/-- The month of `FIELD_DATE`. -/
def fieldMonth (s0 : U16) : Nat := (s0.extractLsb' Config.monthLsb 4).toNat

/-- The day of `FIELD_DATE`. -/
def fieldDay (s0 : U16) : Nat := (s0.extractLsb' Config.dayLsb 5).toNat

/-- `P_mode` by `mode` (10_state R34). -/
def pModeOf (mode : BitVec 2) : F32 :=
  if mode = 0 then Config.pModeVented else if mode = 1 then Config.pModeSealed else Config.pModeAbsolute

/-- Frame `F_ADC` (30_encoding R114). -/
def frameAdc (draw : Nat) (m : Memory) : U24 := decode24 (Memory.cell draw m 0) (Memory.cell draw m 1) (Memory.cell draw m 2)

/-- The word in cells `a` and `a + 1`; it is the device's only if both bytes were received (20_memory R74). -/
def frameWord (draw : Nat) (m : Memory) (a : Nat) : CalWord :=
  let v := decode16 (Memory.cell draw m a) (Memory.cell draw m (a + 1))
  if (Memory.read m a).isSome && (Memory.read m (a + 1)).isSome then .word v else .drawn v

/-- Frame `F_PROM` (R115) for TEMP, frame `F_MEM` (R116) for PRES: there the status byte, cell 0, is dropped. -/
def frameCal (p : Profile) (draw : Nat) (m : Memory) : CalWord :=
  match p with
  | .TEMP => frameWord draw m 0
  | .PRES => frameWord draw m 1

/-- Frame `F_MEAS` (R117). -/
def frameMeas (draw : Nat) (m : Memory) : RawPres where
  status := Memory.cell draw m 0
  P := decode16 (Memory.cell draw m 1) (Memory.cell draw m 2)
  T_raw := decode16 (Memory.cell draw m 3) (Memory.cell draw m 4)

/-- The command byte that selects calibration word `w` (30_encoding R110): `0xA0 + 2*i`, or the memory address itself. -/
def wordCommand (p : Profile) (w : Nat) : Byte :=
  match p with
  | .TEMP => Config.promBase + 2 * BitVec.ofNat 8 w
  | .PRES => Config.memAddrs.getD w 0x00

/-- The length of the reply that holds a calibration word (20_memory R75). -/
def wordLength (p : Profile) : Nat :=
  match p with
  | .TEMP => Config.nProm
  | .PRES => Config.nMem

/-- `W[a]` of the address at place `w` of `Config.memAddrs` receives `v`. -/
def PresWords.put (W : PresWords) (w : Nat) (v : CalWord) : PresWords :=
  match w with
  | 0 => { W with w00 := v }
  | 1 => { W with w01 := v }
  | 2 => { W with w12 := v }
  | 3 => { W with w13 := v }
  | 4 => { W with w14 := v }
  | 5 => { W with w15 := v }
  | 6 => { W with w16 := v }
  | _ => W

/-- Word `w` of the store receives `v`: `S.cal.C[w]` or `S.cal.W[a]` (42_blocking_ops R216, R219). -/
def Cal.put (p : Profile) (w : Nat) (v : CalWord) (c : Cal) : Cal :=
  match p with
  | .TEMP => { c with C := c.C.setIfInBounds w v }
  | .PRES => { c with W := PresWords.put c.W w v }

/-- The value of a word; of an unwritten one, a free value. -/
def CalWord.value (draw : Nat) (w : CalWord) : U16 :=
  match w with
  | .unwritten => Config.freeWord draw
  | .word v => v
  | .drawn v => v

/-- Whether a word is the device's: not unwritten, not drawn. -/
def CalWord.isWord (w : CalWord) : Bool :=
  match w with
  | .word _ => true
  | .unwritten => false
  | .drawn _ => false

/-- `DecodeFields` (42_blocking_ops R220). -/
def decodeFields (draw : Nat) (W : PresWords) : PresFields :=
  let w0 := W.w00.value draw
  let w1 := W.w01.value draw
  let s0 := W.w12.value draw
  { equipment := fieldEquip w0
    place := fieldPlace w0
    file := fieldFile w1
    code := fieldCode w0 w1
    mode := fieldMode s0
    year := fieldYear s0
    month := fieldMonth s0
    day := fieldDay s0
    P_min := bitcastF32 (decode32 (W.w13.value draw) (W.w14.value draw))
    P_max := bitcastF32 (decode32 (W.w15.value draw) (W.w16.value draw))
    P_mode := pModeOf (fieldMode s0) }

/-- The content of the initialisation report (42_blocking_ops R222). -/
def reportOf (f : PresFields) : IdentityReport where
  code := f.code
  equipment := f.equipment
  place := f.place
  file := f.file
  mode := f.mode
  year := f.year
  month := f.month
  day := f.day
  P_min := f.P_min
  P_max := f.P_max

end Sys2Proof.Machine
end

