-- ==== Sys2Proof/Machine/Flags.lean ====
section
/-! DEFINITION. What can be tested: the timers, the poll, the terminal predicate, the tick result, the not-connected predicate. -/

namespace Sys2Proof.Machine

/-- A timer's reading with a counter of the given width (70_reset_and_hazards R320): a plain difference for the unbounded clock,
modular for a finite one. -/
def elapsedAt (bits : Option Nat) (now stamp : Nat) : Nat :=
  match bits with
  | none => now - stamp
  | some b => (now + (2 ^ b - stamp % 2 ^ b)) % 2 ^ b

/-- `now - stamp` (10_state R25). An unwritten stamp gives an unused value (41_sequencer R172): a free one (log 4). -/
def elapsed (s : State) (stamp : Option Nat) : Nat :=
  match stamp with
  | some t => elapsedAt Config.timeBits s.CLK t
  | none => Config.freeElapsed s.draws s.CLK

/-- The outcomes of a poll (41_sequencer R175). -/
inductive PollResult where
  | Done
  | Failed
  | TimedOut
  | Pending
  deriving DecidableEq, Repr

/-- `Poll(fin, err, el_op)`: finished first, then error, and the timeout only of what has not finished; strict (R175). -/
def poll (fin err : Bool) (elOp : Nat) : PollResult :=
  if fin then (if err then .Failed else .Done)
  else if Config.tOpMax < elOp then .TimedOut
  else .Pending

/-- The poll of instance `S` on its transport. -/
def pollOf (s : State) (S : Sensor) (T : Transport) : PollResult := poll T.finished T.error (elapsed s S.tOp)

/-- "terminal" (10_state R35). -/
def terminal (r : ReadState) : Bool :=
  match r with
  | .Complete | .Error => true
  | .Idle | .StartConversion | .WaitConversion | .RequestData | .WaitData => false

/-- The mapping of TICK (41_sequencer R186). -/
def tickOf (r : ReadState) : TickResult :=
  match r with
  | .Complete => .Success
  | .Error => .Failure
  | .Idle | .StartConversion | .WaitConversion | .RequestData | .WaitData => .Running

/-- `IS_INIT(S) = (S.cal.equipment ≠ 63)` (42_blocking_ops R224). -/
def connected (f : PresFields) : Bool := decide (f.equipment ≠ Config.ncCode)

/-- The codes of 30_encoding R103. -/
def stateCode (r : ReadState) : BitVec 3 :=
  match r with
  | .Idle => 0
  | .StartConversion => 1
  | .WaitConversion => 2
  | .RequestData => 3
  | .WaitData => 4
  | .Complete => 5
  | .Error => 6

/-- The codes of 30_encoding R104. -/
def tickCode (t : TickResult) : BitVec 2 :=
  match t with
  | .Running => 0
  | .Success => 1
  | .Failure => 2

/-- The error kinds of 60_exceptions R260. -/
inductive ErrorKind where
  | BusTimeout
  | BusError
  | InitializationFailure
  | NotConnected
  deriving DecidableEq, Repr

/-- The codes of 30_encoding R105; 0 means no error. -/
def errorCode (k : Option ErrorKind) : Nat :=
  match k with
  | none => 0
  | some .BusTimeout => 1
  | some .BusError => 2
  | some .InitializationFailure => 3
  | some .NotConnected => 4

/-- The diagnostic of a bus error kind: it carries `ErrorCode(T)` of a bus error (60_exceptions R261, R262). The other two kinds
are results, not diagnostics (R264, R266). -/
def diagOf (k : ErrorKind) (T : Transport) : Option DiagEvent :=
  match k with
  | .BusTimeout => some .timeoutSeen
  | .BusError => some (.busErrorSeen T.errcode)
  | .InitializationFailure => none
  | .NotConnected => none

end Sys2Proof.Machine
end

