-- ==== Sys2Proof/Machine/Compensation.lean ====
section
/-! DEFINITION. The Compensation Engine and the Derived-Quantity Layer (43_compensation): the integer steps, which are exact; the
calls into the configuration's arithmetic, which is open; and the reference formulas over exact numbers. -/

namespace Sys2Proof.Machine

/-- `adc = D1 / 256` (R249): truncated, the low byte discarded. -/
def adcOf (d1 : U24) : U16 := BitVec.ofNat 16 (d1.toNat / 256)

/-- `P - 16384`, on integers and signed (R252). -/
def pressureCount (P : U16) : Int := (P.toNat : Int) - 16384

/-- `(T_raw >> 4) - 24`, on integers and signed (R254). -/
def temperatureCount (T_raw : U16) : Int := ((T_raw.toNat / 16 : Nat) : Int) - 24

/-- `CompT(C, D1)` (R250) over the five coefficients that enter. -/
def compT (c1 c2 c3 c4 c5 : U16) (d1 : U24) : FLOAT := Config.compT c1 c2 c3 c4 c5 (adcOf d1)

/-- `CompP(cal, P)` (R252). -/
def compP (f : PresFields) (P : U16) : FLOAT := Config.compP f.P_min f.P_max f.P_mode (pressureCount P)

/-- `CompPT(T_raw)` (R254). -/
def compPT (T_raw : U16) : FLOAT := Config.compPT (temperatureCount T_raw)

/-- The coefficients that enter the polynomial are the device's: "`C[0]`, `C[6]`, `C[7]` do not enter" (R250). -/
def tempTrusted (c : Cal) : Bool :=
  c.C[1].isWord && c.C[2].isWord && c.C[3].isWord && c.C[4].isWord && c.C[5].isWord

/-- The words `P_min`, `P_max` and `P_mode` come from are the device's (42_blocking_ops R220, 43_compensation R252). -/
def presTrusted (W : PresWords) : Bool :=
  W.w12.isWord && W.w13.isWord && W.w14.isWord && W.w15.isWord && W.w16.isWord

/-- The compensation of a TEMP reading from its store. "Computed from unwritten or garbage constants" it is unspecified
(10_state R48, 70_reset_and_hazards R315, 93 U12): a free value (log 20). -/
def tempOf (draw : Nat) (c : Cal) (d1 : U24) : FLOAT :=
  if tempTrusted c then
    compT (c.C[1].value draw) (c.C[2].value draw) (c.C[3].value draw) (c.C[4].value draw) (c.C[5].value draw) d1
  else Config.freeFloat draw

/-- The compensation of a PRES pressure from its store; a store "filled from a disconnected device (equipment code 63) is in the
same position" (R315). -/
def pressureOf (draw : Nat) (c : Cal) (P : U16) : FLOAT :=
  match c.fields with
  | none => Config.freeFloat draw
  | some f => if presTrusted c.W && connected f then compP f P else Config.freeFloat draw

/-- `pressure(conversion_factor)` of a pressure in bar; a call that gives no factor has the default factor 1 (R255). -/
def derivedPressure (pBar : FLOAT) (factor : Option F32) : FLOAT := Config.pressure pBar (factor.getD Config.defaultFactor)

/-- `depth_m`: `pressure_in_Pa = pressure(100.0)` (R256). -/
def derivedDepth (pBar : FLOAT) (density : F32) : FLOAT :=
  Config.depth (derivedPressure pBar (some Config.factorPascal)) density

/-- `altitude_m`: `pressure_mbar = pressure(1.0)` (R257). -/
def derivedAltitude (pBar : FLOAT) : FLOAT := Config.altitude (derivedPressure pBar (some Config.factorMillibar))

/-- A derived quantity of a pressure in bar. -/
def derivedOf (q : Derived) (density : F32) (pBar : FLOAT) : FLOAT :=
  match q with
  | .pressure factor => derivedPressure pBar factor
  | .depth => derivedDepth pBar density
  | .altitude => derivedAltitude pBar

/-- The number a binary32 pattern stands for; none for an infinity or a NaN. The field layout is 30_encoding R124's (log 34). -/
def f32Value (f : F32) : Option Rat :=
  let e := (f.bits.extractLsb' 23 8).toNat
  let m := (f.bits.extractLsb' 0 23).toNat
  let sign : Rat := if f.bits.getLsbD 31 then -1 else 1
  if e = 255 then none
  else if e = 0 then some (sign * m / 2 ^ 149)
  else if 150 ≤ e then some (sign * ((2 ^ 23 + m : Nat) : Rat) * 2 ^ (e - 150))
  else some (sign * ((2 ^ 23 + m : Nat) : Rat) / 2 ^ (150 - e))

/-- The reference polynomial of `CompT` (R250). -/
def refT (c1 c2 c3 c4 c5 : U16) (adc : U16) : Rat :=
  -2 * c1.toNat * (adc.toNat : Rat) ^ 4 / 10 ^ 21 + 4 * c2.toNat * (adc.toNat : Rat) ^ 3 / 10 ^ 16
    - 2 * c3.toNat * (adc.toNat : Rat) ^ 2 / 10 ^ 11 + c4.toNat * (adc.toNat : Rat) / 10 ^ 6
    - (3 / 2) * c5.toNat / 10 ^ 2

/-- The reference formula of `CompP` (R252), over the values of the constants. -/
def refP (pMin pMax pMode : Rat) (P : U16) : Rat := pressureCount P * (pMax - pMin) / 32768 + pMin + pMode

/-- The reference formula of `CompPT` (R254). -/
def refPT (T_raw : U16) : Rat := temperatureCount T_raw * (5 / 100) - 50

/-- The reference formula of `pressure()` (R255). -/
def refPressure (pBar factor : Rat) : Rat := pBar * 1000 * factor

/-- The reference formula of `depth_m` (R256). DESIGN CHOICE: at density 0, where the spec gives no depth, it takes Lean's quotient 0;
no step uses it (log 36). -/
def refDepth (pPascal density : Rat) : Rat := (pPascal - 101325) / (density * (980665 / 100000))

/-- The reference formula of `altitude_m` (R257), as the relation of an altitude to a pressure in millibar: its exponent
0.190284 takes it out of the rationals. DESIGN CHOICE: at a negative pressure, where a real power of a negative base is undefined and
the spec is silent, it takes Mathlib's convention for that power; no step uses it, and the machine's `Config.altitude` is free there
(log 36). -/
def AltitudeReference (pMbar altitude : ℝ) : Prop :=
  altitude = (1 - (pMbar / 1013.25) ^ (0.190284 : ℝ)) * 145366.45 * 0.3048

end Sys2Proof.Machine
end

