-- ==== Sys2Proof/Machine/Blocking.lean ====
section
/-! DEFINITION. The blocking operations (42_blocking_ops): INIT, IS_INIT, READ_BLOCKING. INIT and READ_BLOCKING begin in their
meaning and run on in micro-steps, one per sample of the clock and the transport (R212; log 9). -/

namespace Sys2Proof.Machine

/-- The operation stands at phase `ph`. -/
def atPhase (B : Blocking) (ph : Phase) (s : State) : State := setBlk (some { B with phase := ph }) s

/-- The operation ends and returns `r`. -/
def finish (r : Result) (s : State) : State := setBlk none (setRet r s)

/-- What a bounded wait that did not end `Done` emits (R213). -/
def waitDiag (r : PollResult) (T : Transport) (s : State) : State :=
  match r with
  | .Failed => emitDiag (.busErrorSeen T.errcode) s
  | .TimedOut => emitDiag .timeoutSeen s
  | .Done => s
  | .Pending => s

/-- `Delay(S, T_INIT_GAP)` begins: the stamp is taken, and a delay of 0 "returns at once" (R214). -/
def beginGap (B : Blocking) (loop after : Phase) (s : State) : State :=
  atPhase B (if Config.tInitGap = 0 then after else loop) (stampConv B.sensor s)

/-- One iteration of the delay loop (R214). -/
def gapLoop (B : Blocking) (S : Sensor) (after : Phase) (s : State) : State :=
  if Config.tInitGap ≤ elapsed s S.tConv then atPhase B after s else s

/-- An issue of INIT or READ_BLOCKING and the start of its bounded wait: `S.t_op <- Now()` (R213). -/
def issueAndWait (B : Blocking) (ph : Phase) (o : Host.Outcome State Fault Refusal) : Host.Outcome State Fault Refusal :=
  andThen o fun s => .next (atPhase B ph (stampOp B.sensor s))

/-- The calibration word a read that ended with `r` yields: decoded if `Done`, else an unspecified `u16` (R216, R219). -/
def wordRead (r : PollResult) (draw : Nat) (S : Sensor) : CalWord :=
  match r with
  | .Done => frameCal S.profile draw S.buf
  | .Failed | .TimedOut | .Pending => .drawn (Config.freeWord draw)

/-- What a read that ended with `r` adds to `total`: `if r = TimedOut then 0 else BytesTransferred(T)` (R216, R219). -/
def bytesCounted (r : PollResult) (T : Transport) : Int :=
  match r with
  | .TimedOut => 0
  | .Done | .Failed | .Pending => T.nbytes

/-- The store with its fields decoded (R220); for TEMP "there is nothing to decode". -/
def decodeStoreFields (draw : Nat) (S : Sensor) : Sensor :=
  match S.profile with
  | .TEMP => S
  | .PRES => { S with cal := { S.cal with fields := some (decodeFields draw S.cal.W) } }

/-- The report's content, for PRES; for TEMP the source names none (R222). -/
def reportContent (S : Sensor) : Option IdentityReport :=
  match S.profile with
  | .TEMP => none
  | .PRES => S.cal.fields.map reportOf

/-- The end of INIT (R210): fields, report, `S.init_ok <- (total ≠ 0)`, and that as the result. -/
def initEnd (B : Blocking) (s : State) : State :=
  let decoded := updSensor B.sensor (decodeStoreFields s.draws) s
  let reported := emitDiag (.initReport (decoded.sensors[B.sensor]?.bind reportContent)) decoded
  let ok := decide (B.total ≠ 0)
  finish (.bool ok) (nextDraw (updSensor B.sensor (fun S => { S with initOk := ok }) reported))

/-- The end of one `ReadWord`: the word is written, its bytes are counted, and INIT goes on with the next word or ends. -/
def wordEnd (B : Blocking) (S : Sensor) (T : Transport) (w : Nat) (r : PollResult) (s : State) : State :=
  let stored := updSensor B.sensor (fun S' => { S' with cal := Cal.put S.profile w (wordRead r s.draws S) S'.cal }) s
  let counted : Blocking := { B with total := B.total + bytesCounted r T }
  let next := nextDraw (waitDiag r T stored)
  if w + 1 < S.profile.nCal then atPhase counted (.cmdIssue (w + 1)) next else initEnd counted next

/-- Phases 6 and 7 of READ_BLOCKING (R226). -/
def measureStore (draw : Nat) (S : Sensor) : Sensor :=
  let raw := frameMeas draw S.buf
  { S with
    rawPres := some raw
    val := some (.pres (pressureOf draw S.cal raw.P) (compPT raw.T_raw)) }

/-- One micro-step of the blocking operation `B` (R212): one sample of the clock and the transport. -/
def microStep (B : Blocking) (s : State) : Host.Outcome State Fault Refusal :=
  onSensor B.sensor admitBoth s fun S =>
    onBus S.bus s fun T =>
      match B.phase with
      | .resetWait =>
        match pollOf s S T with
        | .Pending => .next s
        | r => .next (beginGap B .resetGap (.cmdIssue 0) (waitDiag r T s))
      | .resetGap => .next (gapLoop B S (.cmdIssue 0) s)
      | .cmdIssue w => issueAndWait B (.cmdWait w) (busWrite S (wordCommand S.profile w) s)
      | .cmdWait w =>
        match pollOf s S T with
        | .Pending => .next s
        | r => .next (beginGap B (.cmdGap w) (.dataIssue w) (waitDiag r T s))
      | .cmdGap w => .next (gapLoop B S (.dataIssue w) s)
      | .dataIssue w => issueAndWait B (.dataWait w) (busRead B.sensor S (wordLength S.profile) s)
      | .dataWait w =>
        match pollOf s S T with
        | .Pending => .next s
        | r => .next (wordEnd B S T w r s)
      | .measureWait =>
        match pollOf s S T with
        | .Pending => .next s
        | .Done => .next (atPhase B .measureDelay (stampConv B.sensor s))
        | r => .next (finish (.tick .Failure) (waitDiag r T s))
      | .measureDelay =>
        if S.profile.tConvMin ≤ elapsed s S.tConv then issueAndWait B .measureData (busRead B.sensor S Config.nMeas s)
        else .next s
      | .measureData =>
        match pollOf s S T with
        | .Pending => .next s
        | .Done => .next (finish (.tick .Success) (nextDraw (updSensor B.sensor (measureStore s.draws) s)))
        | r => .next (finish (.tick .Failure) (waitDiag r T s))

/-- The first transaction of INIT: the reset pulse for TEMP (R215), the first memory read for PRES (R219). -/
def initFirst (k : Nat) (S : Sensor) (s : State) : Host.Outcome State Fault Refusal :=
  match S.profile with
  | .TEMP => issueAndWait ⟨k, .resetWait, 0⟩ .resetWait (busWrite S Config.cmdReset s)
  | .PRES => issueAndWait ⟨k, .cmdWait 0, 0⟩ (.cmdWait 0) (busWrite S (wordCommand .PRES 0) s)

/-- `INIT` (R210) begins; it is refused after an INIT that returned true (R211). -/
def execInit (k : Nat) (s : State) : Host.Outcome State Fault Refusal :=
  onSensor k admitBoth s fun S =>
    if S.initOk then .refused .alreadyInitialised else initFirst k S (setRet .none s)

/-- `IS_INIT` (R224); before any INIT the result is an unspecified bool, a free value (log 5). -/
def execIsInit (k : Nat) (s : State) : Host.Outcome State Fault Refusal :=
  onSensor k admitPres s fun S =>
    match S.cal.fields with
    | some f => .next (setRet (.bool (connected f)) s)
    | none => .next (nextDraw (setRet (.bool (Config.freeBool s.draws)) s))

/-- `READ_BLOCKING` (R225, R226) begins with phase 1. -/
def execReadBlocking (k : Nat) (s : State) : Host.Outcome State Fault Refusal :=
  onSensor k admitPres s fun S =>
    issueAndWait ⟨k, .measureWait, 0⟩ .measureWait (busWrite S S.profile.cmdConvert (setRet .none s))

end Sys2Proof.Machine
end

