-- ==== Sys2Proof/Machine/BusFrames.lean ====
section
/-! DEFINITION. The meanings of the bus command rows (30_encoding R108, R110): each issues its write frame on the named bus
(log 11). -/

namespace Sys2Proof.Machine

/-- `T_RESET` (42_blocking_ops R215). -/
def execTReset (b : Nat) (stop : Bool) (s : State) : Host.Outcome State Fault Refusal := issueFrame b ⟨0x77, 0x1E, stop⟩ s

/-- `T_CONVERT` (41_sequencer R174). -/
def execTConvert (b : Nat) (stop : Bool) (s : State) : Host.Outcome State Fault Refusal := issueFrame b ⟨0x77, 0x48, stop⟩ s

/-- `T_ADC_READ` (41_sequencer R178). -/
def execTAdcRead (b : Nat) (stop : Bool) (s : State) : Host.Outcome State Fault Refusal := issueFrame b ⟨0x77, 0x00, stop⟩ s

/-- `T_PROM_READ` (42_blocking_ops R216): `cmd = 0xA0 + 2*i`, with the `i` of three bits (30_encoding R110). -/
def execTPromRead (b : Nat) (i : Nat) (stop : Bool) (s : State) : Host.Outcome State Fault Refusal :=
  issueFrame b ⟨0x77, 0xA0 + 2 * BitVec.ofNat 8 i, stop⟩ s

/-- `P_MEASURE` (42_blocking_ops R226). -/
def execPMeasure (b : Nat) (stop : Bool) (s : State) : Host.Outcome State Fault Refusal := issueFrame b ⟨0x40, 0xAC, stop⟩ s

/-- `P_MEM_CUST0` (42_blocking_ops R219). -/
def execPMemCust0 (b : Nat) (stop : Bool) (s : State) : Host.Outcome State Fault Refusal := issueFrame b ⟨0x40, 0x00, stop⟩ s

/-- `P_MEM_CUST1`. -/
def execPMemCust1 (b : Nat) (stop : Bool) (s : State) : Host.Outcome State Fault Refusal := issueFrame b ⟨0x40, 0x01, stop⟩ s

/-- `P_MEM_SCALING0`. -/
def execPMemScaling0 (b : Nat) (stop : Bool) (s : State) : Host.Outcome State Fault Refusal :=
  issueFrame b ⟨0x40, 0x12, stop⟩ s

/-- `P_MEM_PMIN_HI`. -/
def execPMemPminHi (b : Nat) (stop : Bool) (s : State) : Host.Outcome State Fault Refusal :=
  issueFrame b ⟨0x40, 0x13, stop⟩ s

/-- `P_MEM_PMIN_LO`. -/
def execPMemPminLo (b : Nat) (stop : Bool) (s : State) : Host.Outcome State Fault Refusal :=
  issueFrame b ⟨0x40, 0x14, stop⟩ s

/-- `P_MEM_PMAX_HI`. -/
def execPMemPmaxHi (b : Nat) (stop : Bool) (s : State) : Host.Outcome State Fault Refusal :=
  issueFrame b ⟨0x40, 0x15, stop⟩ s

/-- `P_MEM_PMAX_LO`. -/
def execPMemPmaxLo (b : Nat) (stop : Bool) (s : State) : Host.Outcome State Fault Refusal :=
  issueFrame b ⟨0x40, 0x16, stop⟩ s

end Sys2Proof.Machine
end

