-- ==== Sys2Proof/Machine/Codec.lean ====
section
/-! DEFINITION. The meanings of the codec operations (40_codec): pure functions whose result is returned and nothing else is
touched. -/

namespace Sys2Proof.Machine

/-- `DECODE16` (R140). -/
def execDecode16 (hi lo : Byte) (s : State) : Host.Outcome State Fault Refusal := .next (setRet (.u16 (decode16 hi lo)) s)

/-- `DECODE24` (R142). -/
def execDecode24 (b0 b1 b2 : Byte) (s : State) : Host.Outcome State Fault Refusal :=
  .next (setRet (.u24 (decode24 b0 b1 b2)) s)

/-- `DECODE32` (R144). -/
def execDecode32 (hi16 lo16 : U16) (s : State) : Host.Outcome State Fault Refusal :=
  .next (setRet (.u32 (decode32 hi16 lo16)) s)

/-- `SPLIT32` (R145). -/
def execSplit32 (u : U32) (s : State) : Host.Outcome State Fault Refusal :=
  .next (setRet (.pair (split32 u).1 (split32 u).2) s)

/-- `BITCAST_F32` (R146). -/
def execBitcastF32 (u : U32) (s : State) : Host.Outcome State Fault Refusal := .next (setRet (.f32 (bitcastF32 u)) s)

/-- `BITCAST_U32` (R147). -/
def execBitcastU32 (f : F32) (s : State) : Host.Outcome State Fault Refusal := .next (setRet (.u32 (bitcastU32 f)) s)

/-- `FIELD_EQUIP` (R150). -/
def execFieldEquip (w0 : U16) (s : State) : Host.Outcome State Fault Refusal := .next (setRet (.field6 (fieldEquip w0)) s)

/-- `FIELD_PLACE` (R151). -/
def execFieldPlace (w0 : U16) (s : State) : Host.Outcome State Fault Refusal := .next (setRet (.field9 (fieldPlace w0)) s)

/-- `FIELD_FILE` (R152). -/
def execFieldFile (w1 : U16) (s : State) : Host.Outcome State Fault Refusal := .next (setRet (.u16 (fieldFile w1)) s)

/-- `FIELD_CODE` (R153). -/
def execFieldCode (w0 w1 : U16) (s : State) : Host.Outcome State Fault Refusal := .next (setRet (.u32 (fieldCode w0 w1)) s)

/-- `FIELD_MODE` (R154). -/
def execFieldMode (s0 : U16) (s : State) : Host.Outcome State Fault Refusal := .next (setRet (.field2 (fieldMode s0)) s)

/-- `FIELD_DATE` (R155). -/
def execFieldDate (s0 : U16) (s : State) : Host.Outcome State Fault Refusal :=
  .next (setRet (.date (fieldYear s0) (fieldMonth s0) (fieldDay s0)) s)

end Sys2Proof.Machine
end

