-- ==== Sys2Proof/Machine/Environment.lean ====
section
/-! DEFINITION. The steps of the other agents: the transport's completion (20_memory R68), the clock (10_state R40), and the
caller's acts that are no operation of the block. -/

namespace Sys2Proof.Machine

/-- The clock agent: `CLK <- CLK + d` (10_state R40). -/
def advanceClock (d : Nat) (s : State) : State := { s with CLK := s.CLK + d }

/-- A transport whose transaction has completed (20_memory R68); the values stay until the next issue. -/
def completed (error : Bool) (errcode nbytes : Int) : Transport where
  inflight := none
  finished := true
  error := error
  errcode := errcode
  nbytes := nbytes

/-- The cells of a read of `n` bytes of which `data` were received: the rest hold "values the block did not receive"
(20_memory R74; log 21). -/
def receive (n : Nat) (data : List Byte) (m : Memory) : Memory :=
  Memory.writeFrom (Memory.eraseFrom m data.length (n - data.length)) 0 data

/-- `complete_ok` of a read: the bytes go to the destination's buffer from cell 0 upward (20_memory R68, R70). -/
def completeRead (b : Nat) (T : Transport) (dest n : Nat) (data : List Byte) (s : State) :
    Host.Outcome State Fault Refusal :=
  if n < data.length then .refused .impossibleCompletion
  else if Config.bufSize < n then .fault .bufferOverflow
  else
    .next (updSensor dest (fun S => { S with buf := receive n data S.buf })
      (setBus b (completed false T.errcode data.length) s))

/-- `complete_ok` of a write. -/
def completeWrite (b : Nat) (T : Transport) (bytes : List Byte) (n : Nat) (s : State) : Host.Outcome State Fault Refusal :=
  if n ≤ bytes.length then .next (setBus b (completed false T.errcode n) s) else .refused .impossibleCompletion

/-- `complete_err(code)`: of a read, no cell of the destination's buffer is known any more (20_memory R68, 93 U8; log 21). -/
def completeErr (b : Nat) (t : Transaction) (code : Int) (n : Nat) (s : State) :
    Host.Outcome State Fault Refusal :=
  match t with
  | .write _ bytes _ =>
    if n ≤ bytes.length then .next (setBus b (completed true code n) s) else .refused .impossibleCompletion
  | .read _ dest len _ =>
    if n ≤ len then
      .next (updSensor dest (fun S => { S with buf := Memory.eraseFrom S.buf 0 Config.bufSize })
        (setBus b (completed true code n) s))
    else .refused .impossibleCompletion

/-- The transport agent's step, "enabled when T.inflight ≠ none" (20_memory R68). -/
def complete (b : Nat) (c : Completion) (s : State) : Host.Outcome State Fault Refusal :=
  onBus b s fun T =>
    match T.inflight with
    | none => .refused .nothingInFlight
    | some t =>
      match c with
      | .err code n => completeErr b t code n s
      | .okWrite n =>
        match t with
        | .write _ bytes _ => completeWrite b T bytes n s
        | .read _ _ _ _ => .refused .impossibleCompletion
      | .okRead data =>
        match t with
        | .write _ _ _ => .refused .impossibleCompletion
        | .read _ dest n _ => completeRead b T dest n data s

/-- A new instance is made (70_reset_and_hazards R300, R301; 92 D37): it needs its bus, and does nothing to it. -/
def constructSensor (p : Profile) (b : Nat) (s : State) : Host.Outcome State Fault Refusal :=
  onBus b s fun _ => .next { s with sensors := s.sensors ++ [Sensor.construct p b] }

/-- The caller sets the fluid density (10_state R41, 43_compensation R256). -/
def setFluidDensity (v : F32) (s : State) : State := { s with fluidDensity := v }

/-- A consumer asks for a derived quantity of a PRES instance (43_compensation R255 to R257); the unwritten `S.val` faults
(90_conflicts C10; log 23). -/
def deriveQuantity (k : Nat) (q : Derived) (s : State) : Host.Outcome State Fault Refusal :=
  onSensor k admitPres s fun S =>
    match S.val with
    | none => .fault .unwrittenValue
    | some (.temp _) => .refused .notAdmitted
    | some (.pres pBar _) => .next (setRet (.float (derivedOf q s.fluidDensity pBar)) s)

end Sys2Proof.Machine
end

