-- ==== Sys2Proof/Machine/Sequencer.lean ====
section
/-! DEFINITION. The Read State Machine (41_sequencer): the pure transition function, its effects, and ADVANCE, TICK, QUERY, RESET,
GET_VALUE. -/

namespace Sys2Proof.Machine

/-- The effects of a transition (R170). -/
inductive Effect where
  | issueWrite (cmd : Byte)
  | issueRead (n : Nat)
  | resetOpTimer
  | resetConvTimer
  | decodeAndStore
  | diag (k : ErrorKind)
  deriving DecidableEq, Repr

/-- What the three polling states do: `wait` is the state itself, `done` what a clean finish leads to (R176, R180, R182). -/
def pollTransition (r : PollResult) (wait : ReadState) (done : ReadState × List Effect) : ReadState × List Effect :=
  match r with
  | .Done => done
  | .Failed => (.Error, [.diag .BusError])
  | .TimedOut => (.Error, [.diag .BusTimeout])
  | .Pending => (wait, [])

/-- `step` of R170: the next state and the effects, from the state, the transport's status and the two timers. One case per state:
R174, R176, R178, R180, R182, R184, R185. -/
def transition (p : Profile) (rs : ReadState) (fin err : Bool) (elOp elConv : Nat) : ReadState × List Effect :=
  match rs with
  | .Idle => (.StartConversion, [.issueWrite p.cmdConvert, .resetOpTimer])
  | .StartConversion => pollTransition (poll fin err elOp) .StartConversion (.WaitConversion, [.resetConvTimer])
  | .WaitConversion =>
    if p.tConvMin ≤ elConv then (.RequestData, [.issueWrite Config.cmdAdcRead, .resetOpTimer]) else (.WaitConversion, [])
  | .RequestData => pollTransition (poll fin err elOp) .RequestData (.WaitData, [.issueRead Config.nAdc, .resetOpTimer])
  | .WaitData => pollTransition (poll fin err elOp) .WaitData (.Complete, [.decodeAndStore])
  | .Complete => (.Complete, [])
  | .Error => (.Error, [])

/-- `DecodeAndStore` on the instance (R183): decode, compensate, store. -/
def decodeStore (draw : Nat) (S : Sensor) : Sensor :=
  { S with
    rawD1 := some (frameAdc draw S.buf)
    val := some (.temp (tempOf draw S.cal (frameAdc draw S.buf))) }

/-- One effect, for instance `k`; `S` is the instance at the start of the operation, of which only the profile and the bus are
used. -/
def perform (k : Nat) (S : Sensor) (e : Effect) (s : State) : Host.Outcome State Fault Refusal :=
  match e with
  | .issueWrite cmd => busWrite S cmd s
  | .issueRead n => busRead k S n s
  | .resetOpTimer => .next (stampOp k s)
  | .resetConvTimer => .next (stampConv k s)
  | .decodeAndStore => .next (nextDraw (updSensor k (decodeStore s.draws) s))
  | .diag kind =>
    onBus S.bus s fun T =>
      match diagOf kind T with
      | some e => .next (raiseError k e s)
      | none => .next s

/-- "perform effects in order" (R172). -/
def performAll (k : Nat) (S : Sensor) (es : List Effect) (s : State) : Host.Outcome State Fault Refusal :=
  match es with
  | [] => .next s
  | e :: es => andThen (perform k S e s) fun s' => performAll k S es s'

/-- The transition instance `S` takes at this step: the inputs are sampled once (R172). -/
def sampled (s : State) (S : Sensor) (T : Transport) : ReadState × List Effect :=
  transition S.profile S.rs T.finished T.error (elapsed s S.tOp) (elapsed s S.tConv)

/-- `ADVANCE` (R172), with what is reported of the state after the tick. -/
def advanceWith (report : ReadState → Result) (k : Nat) (s : State) : Host.Outcome State Fault Refusal :=
  onSensor k admitTemp s fun S =>
    onBus S.bus s fun T =>
      andThen (performAll k S (sampled s S T).2 s) fun s' =>
        .next (setRet (report (sampled s S T).1) (setPc k (sampled s S T).1 s'))

/-- `ADVANCE` (R172): it returns the state after the tick. -/
def execAdvance (k : Nat) (s : State) : Host.Outcome State Fault Refusal := advanceWith .readState k s

/-- `TICK` (R186): ADVANCE, then the three-valued result of the state after it. -/
def execTick (k : Nat) (s : State) : Host.Outcome State Fault Refusal := advanceWith (fun r => .tick (tickOf r)) k s

/-- `QUERY` (R187). -/
def execQuery (k : Nat) (s : State) : Host.Outcome State Fault Refusal :=
  onSensor k admitTemp s fun S => .next (setRet (.query S.rs (terminal S.rs)) s)

/-- `RESET` (R188): `pc <- Idle`; "Nothing else changes". -/
def execReset (k : Nat) (s : State) : Host.Outcome State Fault Refusal :=
  onSensor k admitTemp s fun _ => .next (setRet .none (returnToIdle k s))

/-- `GET_VALUE` (R190): before any cycle has completed the read faults (10_state R48). -/
def execGetValue (k : Nat) (s : State) : Host.Outcome State Fault Refusal :=
  onSensor k admitBoth s fun S =>
    match S.val with
    | some v => .next (setRet (.value v) s)
    | none => .fault .unwrittenValue

end Sys2Proof.Machine
end

