-- ==== Sys2Proof/Machine/Dispatch.lean ====
section
/-! DEFINITION. One arm per operation. -/

namespace Sys2Proof.Machine

def exec (i : Instr) (s : State) : Host.Outcome State Fault Refusal :=
  match i with
  | .advance k => Sys2Proof.Machine.execAdvance k s
  | .tick k => Sys2Proof.Machine.execTick k s
  | .query k => Sys2Proof.Machine.execQuery k s
  | .reset k => Sys2Proof.Machine.execReset k s
  | .getValue k => Sys2Proof.Machine.execGetValue k s
  | .init k => Sys2Proof.Machine.execInit k s
  | .isInit k => Sys2Proof.Machine.execIsInit k s
  | .readBlocking k => Sys2Proof.Machine.execReadBlocking k s
  | .decode16 hi lo => Sys2Proof.Machine.execDecode16 hi lo s
  | .decode24 b0 b1 b2 => Sys2Proof.Machine.execDecode24 b0 b1 b2 s
  | .decode32 hi16 lo16 => Sys2Proof.Machine.execDecode32 hi16 lo16 s
  | .split32 u => Sys2Proof.Machine.execSplit32 u s
  | .bitcastF32 u => Sys2Proof.Machine.execBitcastF32 u s
  | .bitcastU32 f => Sys2Proof.Machine.execBitcastU32 f s
  | .fieldEquip w0 => Sys2Proof.Machine.execFieldEquip w0 s
  | .fieldPlace w0 => Sys2Proof.Machine.execFieldPlace w0 s
  | .fieldFile w1 => Sys2Proof.Machine.execFieldFile w1 s
  | .fieldCode w0 w1 => Sys2Proof.Machine.execFieldCode w0 w1 s
  | .fieldMode s0 => Sys2Proof.Machine.execFieldMode s0 s
  | .fieldDate s0 => Sys2Proof.Machine.execFieldDate s0 s
  | .tReset b stop => Sys2Proof.Machine.execTReset b stop s
  | .tConvert b stop => Sys2Proof.Machine.execTConvert b stop s
  | .tAdcRead b stop => Sys2Proof.Machine.execTAdcRead b stop s
  | .tPromRead b j stop => Sys2Proof.Machine.execTPromRead b j stop s
  | .pMeasure b stop => Sys2Proof.Machine.execPMeasure b stop s
  | .pMemCust0 b stop => Sys2Proof.Machine.execPMemCust0 b stop s
  | .pMemCust1 b stop => Sys2Proof.Machine.execPMemCust1 b stop s
  | .pMemScaling0 b stop => Sys2Proof.Machine.execPMemScaling0 b stop s
  | .pMemPminHi b stop => Sys2Proof.Machine.execPMemPminHi b stop s
  | .pMemPminLo b stop => Sys2Proof.Machine.execPMemPminLo b stop s
  | .pMemPmaxHi b stop => Sys2Proof.Machine.execPMemPmaxHi b stop s
  | .pMemPmaxLo b stop => Sys2Proof.Machine.execPMemPmaxLo b stop s

end Sys2Proof.Machine
end

