-- ==== Sys2Proof/Machine/Script.lean ====
section
/-! DEFINITION. The script: which agent moves next, and what its line does (00_scope R19, 30_encoding R128; log 8). -/

namespace Sys2Proof.Machine

/-- The script after one operation of a byte call has been taken: bytes that are left stay at its head. -/
def requeue (k : Nat) (left : List Byte) (rest : List Line) : List Line :=
  match left with
  | [] => rest
  | b :: bs => .host (.bytes k (b :: bs)) :: rest

/-- The script after the operation at its head has been taken from the call `c`. -/
def scriptAfter (c : Call) (left : List Byte) (rest : List Line) : List Line :=
  match c with
  | .bytes k _ => requeue k left rest
  | .frame _ _ => rest

/-- A line is taken while no blocking operation runs; `rest` is the script after it. -/
def takeLine (l : Line) (rest : List Line) (s : State) : Host.Outcome State Fault Refusal :=
  match l with
  | .host c =>
    match decode c with
    | .error e => .refused (.undecodable e)
    | .ok (i, left) => exec i { s with script := scriptAfter c left rest }
  | .construct p b => constructSensor p b { s with script := rest }
  | .setDensity v => .next (setFluidDensity v { s with script := rest })
  | .derive k q => deriveQuantity k q { s with script := rest }
  | .clock d => .next (advanceClock d { s with script := rest })
  | .bus b c => complete b c { s with script := rest }
  | .block => .next { s with script := rest }

/-- A line meets the blocking operation `B`: the clock and the transports move, the block takes a micro-step at its own line, and
a line of the host waits while the block goes on, for "no other host operation can start" (42_blocking_ops R212). -/
def heldLine (B : Blocking) (l : Line) (rest : List Line) (s : State) : Host.Outcome State Fault Refusal :=
  match l with
  | .clock d => .next (advanceClock d { s with script := rest })
  | .bus b c => complete b c { s with script := rest }
  | .block => microStep B { s with script := rest }
  | .host _ => microStep B s
  | .construct _ _ => microStep B s
  | .setDensity _ => microStep B s
  | .derive _ _ => microStep B s

/-- The next move of the run. With an empty script the block goes on with a blocking operation; otherwise nothing moves
(70_reset_and_hazards R317). -/
def runScript (s : State) : Host.Outcome State Fault Refusal :=
  match s.blk, s.script with
  | none, [] => .next s
  | none, l :: rest => takeLine l rest s
  | some B, [] => microStep B s
  | some B, l :: rest => heldLine B l rest s

end Sys2Proof.Machine
end

