-- ==== Sys2Proof/Machine/Step.lean ====
section
/-! DEFINITION. One step of the machine. -/

namespace Sys2Proof.Machine

/-- The step: the agent whose line stands at the head of the script moves. A run whose FAULT mark is set has gone wrong, and the
mark is never cleared (10_state R45; log 6). -/
def step (s : State) : Host.Outcome State Fault Refusal :=
  if s.FAULT then .fault .runMarked else runScript s

/-- `s` with the table's word stored where `step` takes its next instruction: at the head of the script, with no blocking operation
running and no fault mark (log 8, log 12). -/
def State.withFetchWord (s : State) (nbits w : Nat) : State :=
  { s with FAULT := false, blk := none, script := .host (tableCall nbits w) :: s.script }

end Sys2Proof.Machine
end

