-- ==== Sys2Proof/Safety.lean ====
section
/-! DEFINITION. What counts as a sound state and a safe run, in the terms the statements use: the invariant of the machine, the
runs, and the premises that 70_reset_and_hazards R310 names as duties of the caller and the platform. -/

namespace Sys2Proof.Safety

open Sys2Proof.Machine

/-- The stamps are not in the future (40_codec R160: "never negative"). -/
def stampsPast (now : Nat) (S : Sensor) : Prop :=
  (∀ t, S.tOp = some t → t ≤ now) ∧ (∀ t, S.tConv = some t → t ≤ now)

/-- "no timer is read before it is written" (41_sequencer R189). -/
def timersWritten (S : Sensor) : Prop :=
  (S.rs = .StartConversion ∨ S.rs = .RequestData ∨ S.rs = .WaitData → S.tOp ≠ none) ∧
  (S.rs = .WaitConversion → S.tConv ≠ none)

/-- `S.rs` of a PRES instance never leaves `Idle` (42_blocking_ops R225). -/
def presIdle (S : Sensor) : Prop := S.profile = .PRES → S.rs = .Idle

/-- A reading is of its instance's profile (10_state R29). -/
def readingMatches (S : Sensor) : Prop :=
  match S.val with
  | none => True
  | some (.temp _) => S.profile = .TEMP
  | some (.pres _ _) => S.profile = .PRES

/-- A successful INIT has decoded the fields (42_blocking_ops R210, R220). -/
def fieldsDecoded (S : Sensor) : Prop := S.profile = .PRES → S.initOk = true → S.cal.fields ≠ none

/-- A sound instance on a platform with `n` buses at time `now`. -/
structure SensorSound (n now : Nat) (S : Sensor) : Prop where
  bus : S.bus < n
  buffer : Memory.wf S.buf = true
  stamps : stampsPast now S
  timers : timersWritten S
  idle : presIdle S
  reading : readingMatches S
  fields : fieldsDecoded S

/-- The transactions the block generates (20_memory R61, R75): a write of one command byte of its device's map, and a read of 2 or
3 bytes from 0x77 or of 3 or 5 bytes from 0x40, into the buffer of an instance of that profile. -/
def transactionListed (sensors : List Sensor) (t : Transaction) : Prop :=
  match t with
  | .write addr bytes stop => ∃ cmd i, bytes = [cmd] ∧ decodeFrame 0 ⟨addr, cmd, stop⟩ = .ok i
  | .read addr dest n stop =>
    stop = Config.stop ∧ ∃ S, sensors[dest]? = some S ∧ addr = S.profile.addr ∧
      match S.profile with
      | .TEMP => n = Config.nProm ∨ n = Config.nAdc
      | .PRES => n = Config.nMem ∨ n = Config.nMeas

/-- A busy transport reads "not finished" and "no error" (20_memory R67), and carries a listed transaction. -/
def TransportSound (sensors : List Sensor) (T : Transport) : Prop :=
  ∀ t, T.inflight = some t → T.finished = false ∧ T.error = false ∧ transactionListed sensors t

/-- Where a blocking operation may stand, on the instance it runs on (42_blocking_ops R210 to R226). -/
def phaseSound (S : Sensor) (ph : Phase) : Prop :=
  match ph with
  | .resetWait => S.profile = .TEMP ∧ S.initOk = false ∧ S.tOp ≠ none
  | .resetGap => S.profile = .TEMP ∧ S.initOk = false ∧ S.tConv ≠ none
  | .cmdIssue w => w < S.profile.nCal ∧ S.initOk = false
  | .cmdWait w => w < S.profile.nCal ∧ S.initOk = false ∧ S.tOp ≠ none
  | .cmdGap w => w < S.profile.nCal ∧ S.initOk = false ∧ S.tConv ≠ none
  | .dataIssue w => w < S.profile.nCal ∧ S.initOk = false
  | .dataWait w => w < S.profile.nCal ∧ S.initOk = false ∧ S.tOp ≠ none
  | .measureWait => S.profile = .PRES ∧ S.tOp ≠ none
  | .measureDelay => S.profile = .PRES ∧ S.tConv ≠ none
  | .measureData => S.profile = .PRES ∧ S.tOp ≠ none

/-- The blocking operation in progress is sound. -/
def BlockingSound (s : State) : Prop :=
  ∀ B, s.blk = some B → ∃ S, s.sensors[B.sensor]? = some S ∧ phaseSound S B.phase

/-- The invariant of the machine. -/
structure MachineInv (s : State) : Prop where
  unmarked : s.FAULT = false
  sensors : ∀ S ∈ s.sensors, SensorSound s.buses.length s.CLK S
  buses : ∀ T ∈ s.buses, TransportSound s.sensors T
  blocking : BlockingSound s

/-- Instance `k` of `s` is `S`, and its bus is `T`. -/
def Has (s : State) (k : Nat) (S : Sensor) (T : Transport) : Prop := s.sensors[k]? = some S ∧ s.buses[S.bus]? = some T

/-- `s` with the instance at place `k` replaced by `S`, and nothing else changed. -/
def withSensor (k : Nat) (S : Sensor) (s : State) : State := { s with sensors := s.sensors.set k S }

/-- `s` with the transport at place `b` replaced by `T`, and nothing else changed. -/
def withBus (b : Nat) (T : Transport) (s : State) : State := { s with buses := s.buses.set b T }

/-- A transport on which `t` was issued in state `s` (20_memory R67): the error code and the byte count are free values. -/
def justIssued (t : Transaction) (s : State) : Transport where
  inflight := some t
  finished := false
  error := false
  errcode := Config.freeErrcode s.draws
  nbytes := Config.freeNbytes s.draws

/-- A state a run from `s` reaches in `n` steps. -/
def reaches (s : State) (n : Nat) (t : State) : Prop := Host.Core.run Sys2Proof.core n s = .next t

/-- The operation the host invokes at the next step; none where another agent moves or the host is held. -/
def taken (s : State) : Option Instr :=
  match s.blk, s.script with
  | none, .host c :: _ =>
    match decode c with
    | .ok (i, _) => some i
    | .error _ => none
  | _, _ => none

/-- The instance an operation can change; none for an operation that changes no instance. -/
def subject : Instr → Option Nat
  | .advance k | .tick k | .reset k | .init k | .readBlocking k => some k
  | .query _ | .getValue _ | .isInit _ => none
  | .decode16 _ _ | .decode24 _ _ _ | .decode32 _ _ | .split32 _ | .bitcastF32 _ | .bitcastU32 _ => none
  | .fieldEquip _ | .fieldPlace _ | .fieldFile _ | .fieldCode _ _ | .fieldMode _ | .fieldDate _ => none
  | .tReset _ _ | .tConvert _ _ | .tAdcRead _ _ | .tPromRead _ _ _ => none
  | .pMeasure _ _ | .pMemCust0 _ _ | .pMemCust1 _ _ | .pMemScaling0 _ _ => none
  | .pMemPminHi _ _ | .pMemPminLo _ _ | .pMemPmaxHi _ _ | .pMemPmaxLo _ _ => none

/-- The instance a step from `s` moves: the one a blocking operation runs on, or the one the host's next operation is on. None for
another agent's line, and for a bare frame, which belongs to no instance (log 11). -/
def mover (s : State) : Option Nat :=
  match s.blk with
  | some B => some B.sensor
  | none => (taken s).bind subject

/-- The next step is a tick of instance `k`. -/
def ticks (k : Nat) (s : State) : Bool := decide (taken s = some (.advance k)) || decide (taken s = some (.tick k))

/-- How many of the first `n` steps from `s` are ticks of instance `k`. -/
def tickCount (k : Nat) : Nat → State → Nat
  | 0, _ => 0
  | n + 1, s =>
    (if ticks k s then 1 else 0) +
      match step s with
      | .next t => tickCount k n t
      | .fault _ => 0
      | .refused _ => 0

/-- The outside world adds lines to the script. -/
def fed (more : List Line) (s : State) : State := { s with script := s.script ++ more }

/-- An endless run: before each step the outside world adds what lines it likes, and the step goes on. -/
def IsRun (r : Nat → State) (feed : Nat → List Line) : Prop := ∀ n, step (fed (feed n) (r n)) = .next (r (n + 1))

/-- `BusFreeAtIssue` (70_reset_and_hazards R310): the bus of instance `k` has nothing in flight. -/
def BusFreeAtIssue (k : Nat) (s : State) : Prop := ∀ S T, Has s k S T → T.inflight = none

/-- Instance `k` is inside a cycle. -/
def inCycle (S : Sensor) : Bool := decide (S.rs ≠ .Idle) && !terminal S.rs

/-- Instance `k` is between the start and the end of a blocking operation. -/
def isBlocking (k : Nat) (s : State) : Prop := ∃ B, s.blk = some B ∧ B.sensor = k

/-- `SingleOwner` (70_reset_and_hazards R310, R314) at one step from `s` to `t`: while instance `k` is inside a cycle or a blocking
operation, a transaction comes onto its bus only in a step that moves `k` itself: "no other instance on the same bus issues a
transaction". -/
def SingleOwner (k : Nat) (s t : State) : Prop :=
  ∀ S T S' T', Has s k S T → Has t k S' T' → inCycle S = true ∨ isBlocking k s → T.inflight = none → T'.inflight ≠ none →
    mover s = some k

/-- The caller does not run an INIT on instance `k` inside `k`'s own cycle. -/
def NoInitInsideCycle (k : Nat) (s : State) : Prop := ∀ S, s.sensors[k]? = some S → inCycle S = true → ¬ isBlocking k s

/-- What may be in flight on the bus of a TEMP instance by its phase (20_memory R79): nothing, or its own transaction. -/
def phaseTransaction (k : Nat) (r : ReadState) (t : Transaction) : Prop :=
  match r with
  | .StartConversion => t = .write 0x77 [0x48] Config.stop
  | .RequestData => t = .write 0x77 [0x00] Config.stop
  | .WaitData => t = .read 0x77 k Config.nAdc Config.stop
  | .WaitConversion => False
  | .Idle | .Complete | .Error => True

/-- Instance `k`, if it is inside a cycle, polls its own transaction. -/
def OwnTransaction (k : Nat) (s : State) : Prop :=
  ∀ S T t, Has s k S T → T.inflight = some t → phaseTransaction k S.rs t

/-- What may be in flight on the bus of instance `k` by the phase of a blocking operation on it (42_blocking_ops R210 to R226): the
transaction that phase waits for; in the delay of READ_BLOCKING nothing; in INIT also what a wait that timed out left. -/
def blockingTransaction (k : Nat) (S : Sensor) (ph : Phase) (t : Transaction) : Prop :=
  match ph with
  | .resetWait => t = .write 0x77 [0x1E] Config.stop
  | .cmdWait w => t = .write S.profile.addr [wordCommand S.profile w] Config.stop
  | .dataWait _ => t = .read S.profile.addr k (wordLength S.profile) Config.stop
  | .measureWait => t = .write 0x40 [0xAC] Config.stop
  | .measureData => t = .read 0x40 k Config.nMeas Config.stop
  | .measureDelay => False
  | .resetGap | .cmdIssue _ | .cmdGap _ | .dataIssue _ => True

/-- A blocking operation polls its own transaction. -/
def BlockingOwnTransaction (s : State) : Prop :=
  ∀ B S T t, s.blk = some B → Has s B.sensor S T → T.inflight = some t → blockingTransaction B.sensor S B.phase t

/-- A transaction addressed to the device of instance `k`; a read, into that instance's buffer. -/
def addressedBy (k : Nat) (S : Sensor) (t : Transaction) : Prop :=
  match t with
  | .write addr _ _ => addr = S.profile.addr
  | .read addr dest _ _ => addr = S.profile.addr ∧ dest = k

/-- `ClockAdvances` (R310, R317): the clock passes every bound. -/
def ClockAdvances (r : Nat → State) : Prop := ∀ t, ∃ n, t ≤ (r n).CLK

/-- `HostKeepsTicking` (R310, R317): instance `k` is ticked again and again. -/
def HostKeepsTicking (k : Nat) (r : Nat → State) (feed : Nat → List Line) : Prop :=
  ∀ n, ∃ m, n ≤ m ∧ ticks k (fed (feed m) (r m)) = true

/-- The next step is a micro-step of the blocking operation: neither the clock's line nor a transport's stands first. -/
def microSteps (s : State) : Bool :=
  match s.blk, s.script with
  | none, _ => false
  | some _, [] => true
  | some _, .clock _ :: _ => false
  | some _, .bus _ _ :: _ => false
  | some _, .block :: _ => true
  | some _, .host _ :: _ => true
  | some _, .construct _ _ :: _ => true
  | some _, .setDensity _ :: _ => true
  | some _, .derive _ _ :: _ => true

/-- The clock and the transports do not shut the block out: "the loop keeps taking micro-steps" (93_implementation_defined U30;
42_blocking_ops R212; log 28). -/
def LoopKeepsStepping (r : Nat → State) (feed : Nat → List Line) : Prop :=
  ∀ n, ∃ m, n ≤ m ∧ ((r m).blk = none ∨ microSteps (fed (feed m) (r m)) = true)

/-- The lines of one calibration word of a PRES instance whose transactions are prompt and good (95_test_vectors V61): its command
completes, the block sees that and issues the read, the read completes with a status byte and the word, the block stores it and
goes on. -/
def wordLines (b : Nat) (reply : Byte × Byte × Byte) : List Line :=
  [.bus b (.okWrite 1), .block, .block, .bus b (.okRead [reply.1, reply.2.1, reply.2.2]), .block, .block]

/-- The word a memory reply holds (30_encoding R116). -/
def replyWord (reply : Byte × Byte × Byte) : CalWord := .word (reply.2.1 ++ reply.2.2)

/-- The bus a bus command names. -/
def namedBus : Instr → Option Nat
  | .tReset b _ | .tConvert b _ | .tAdcRead b _ | .tPromRead b _ _ => some b
  | .pMeasure b _ | .pMemCust0 b _ | .pMemCust1 b _ | .pMemScaling0 b _ => some b
  | .pMemPminHi b _ | .pMemPminLo b _ | .pMemPmaxHi b _ | .pMemPmaxLo b _ => some b
  | .advance _ | .tick _ | .query _ | .reset _ | .getValue _ | .init _ | .isInit _ | .readBlocking _ => none
  | .decode16 _ _ | .decode24 _ _ _ | .decode32 _ _ | .split32 _ | .bitcastF32 _ | .bitcastU32 _ => none
  | .fieldEquip _ | .fieldPlace _ | .fieldFile _ | .fieldCode _ _ | .fieldMode _ | .fieldDate _ => none

/-- The cycle of instance `k` is not abandoned: no step puts it back to `Idle`, and no blocking operation runs on it. -/
def NotAbandoned (k : Nat) (r : Nat → State) : Prop :=
  (∀ n S S', (r n).sensors[k]? = some S → (r (n + 1)).sensors[k]? = some S' → S'.rs = .Idle → S.rs = .Idle) ∧
  ∀ n B, (r n).blk = some B → B.sensor ≠ k

end Sys2Proof.Safety
end

