-- ==== Sys2Proof/Certificates/Slice0/Obligations.lean ====
section
/-! DEFINITION. The statements for the provers, in the order of OBLIGATIONS.json. -/

section

open Sys2Proof Sys2Proof.Machine Sys2Proof.Safety

/-- 10_state R47 and 70_reset_and_hazards R300, R301: what a launch leaves, on every platform, and what a construction adds. That
"unwritten" is `none` is log 4; the pattern of the density is log 22; the platform of `State.reset` is log 1. -/
def Obligations.ResetState : Prop :=
  (∀ (platform : List (Profile × Nat)) (n : Nat),
    let s := State.launch platform n
    s.sensors.map (fun S => (S.profile, S.bus)) = platform ∧ s.buses.length = n ∧
    (∀ S ∈ s.sensors, S.rs = .Idle ∧ S.tOp = none ∧ S.tConv = none ∧ (∀ a, Memory.read S.buf a = none) ∧ S.rawD1 = none ∧
      S.rawPres = none ∧ S.val = none ∧ (∀ w ∈ S.cal.C, w = .unwritten) ∧
      S.cal.W = ⟨.unwritten, .unwritten, .unwritten, .unwritten, .unwritten, .unwritten, .unwritten⟩ ∧
      S.cal.fields = none ∧ S.initOk = false) ∧
    (∀ T ∈ s.buses, T.inflight = none) ∧
    f32Value s.fluidDensity = some 1029 ∧ s.diag = [] ∧ s.FAULT = false) ∧
  State.reset = State.launch [(.TEMP, 0), (.PRES, 1)] 2 ∧
  ∀ (s : State) (p : Profile) (b : Nat) (T : Transport), s.buses[b]? = some T →
    ∃ S : Sensor, constructSensor p b s = .next { s with sensors := s.sensors ++ [S] } ∧
      [S] = (State.launch [(p, b)] 0).sensors

/-- The invariant holds after reset. -/
def Obligations.ResetMeetsMachineInv : Prop := MachineInv State.reset

/-- Every step keeps the invariant: the buffers keep their canonical form and their five cells, no stamp lies in the future, a
timer that can be read is written, a PRES instance stays in Idle, a busy transport reads "not finished", and every transaction in
flight is one of 20_memory R75. -/
def Obligations.StepKeepsMachineInv : Prop :=
  ∀ s t : State, MachineInv s → step s = .next t → MachineInv t

/-- Words written out from 30_encoding R102, R108 and R110, one of every format and more. -/
def Obligations.WordsDecode : Prop :=
  decode (.bytes 3 [0x01]) = .ok (.advance 3, []) ∧
  decode (.bytes 0 [0x02]) = .ok (.tick 0, []) ∧
  decode (.bytes 1 [0x06, 0x07]) = .ok (.init 1, [0x07]) ∧
  decode (.bytes 1 [0x08]) = .ok (.readBlocking 1, []) ∧
  decode (.bytes 0 [0x10, 0x6F, 0x1E]) = .ok (.decode16 0x6F 0x1E, []) ∧
  decode (.bytes 0 [0x12, 0x41, 0xF0, 0x00, 0x00]) = .ok (.decode32 0x41F0 0x0000, []) ∧
  decode (.bytes 0 [0x1B, 0x17, 0x23, 0xBE, 0xEF, 0x05]) = .ok (.fieldCode 0x1723 0xBEEF, [0x05]) ∧
  decode (.frame 0 ⟨0x77, 0x48, true⟩) = .ok (.tConvert 0 true, []) ∧
  decode (.frame 0 ⟨0x77, 0xAC, true⟩) = .ok (.tPromRead 0 6 true, []) ∧
  decode (.frame 1 ⟨0x40, 0xAC, true⟩) = .ok (.pMeasure 1 true, []) ∧
  decode (.frame 1 ⟨0x40, 0x16, false⟩) = .ok (.pMemPmaxLo 1 false, [])

/-- 30_encoding R102, R126 and 20_memory R61 to R63: every opcode outside the table is refused, by the decoder and by the step;
every other device address and every other command byte is rejected. Two clauses are the model's own: that a codec opcode with too
few operand bytes is rejected rests on log 10 (operands as bytes after the opcode), and the step's refusal on log 8 (the script). -/
def Obligations.ReservedCodesRefused : Prop :=
  (∀ (k : Nat) (op : Byte) (bs : List Byte),
    op.toNat ∉ [0x01, 0x02, 0x03, 0x04, 0x05, 0x06, 0x07, 0x08, 0x10, 0x11, 0x12, 0x13, 0x14, 0x15, 0x18, 0x19, 0x1A, 0x1B,
      0x1C, 0x1D] →
    decode (.bytes k (op :: bs)) = .error (.reservedOpcode op) ∧
    ∀ (s : State) (rest : List Line), s.FAULT = false → s.blk = none → s.script = .host (.bytes k (op :: bs)) :: rest →
      step s = .refused (.undecodable (.reservedOpcode op))) ∧
  (∀ (k : Nat) (op : Byte) (bs : List Byte), bs.length < operandBytes op →
    decode (.bytes k (op :: bs)) = .error (.missingOperands op)) ∧
  (∀ (b : Nat) (f : Frame), f.addr ≠ 0x77 → f.addr ≠ 0x40 → decode (.frame b f) = .error (.unknownDevice f.addr)) ∧
  (∀ (b : Nat) (cmd : Byte) (stop : Bool),
    cmd.toNat ∉ [0x1E, 0x48, 0x00, 0xA0, 0xA2, 0xA4, 0xA6, 0xA8, 0xAA, 0xAC, 0xAE] →
    decode (.frame b ⟨0x77, cmd, stop⟩) = .error (.unknownCommand 0x77 cmd)) ∧
  ∀ (b : Nat) (cmd : Byte) (stop : Bool), cmd.toNat ∉ [0xAC, 0x00, 0x01, 0x12, 0x13, 0x14, 0x15, 0x16] →
    decode (.frame b ⟨0x40, cmd, stop⟩) = .error (.unknownCommand 0x40 cmd)

/-- Decoding an encoded well-formed instruction gives it back, with every operand at every value; bytes that follow are left. The
byte order of the operands is log 10. -/
def Obligations.DecodeInvertsEncode : Prop :=
  ∀ i : Instr, i.wellFormed = true →
    match encode i with
    | .bytes k bs => ∀ rest, decode (.bytes k (bs ++ rest)) = .ok (i, rest)
    | .frame b f => decode (.frame b f) = .ok (i, [])

/-- What the decoder reads, the encoder writes: no two encodings spell one instruction, but for the instance that stands beside the
bytes of a codec operation. -/
def Obligations.DecodedCallsReencode : Prop :=
  (∀ (k : Nat) (bs left : List Byte) (i : Instr), decode (.bytes k bs) = .ok (i, left) →
    i.wellFormed = true ∧ ∃ k' used, encode i = .bytes k' used ∧ bs = used ++ left ∧ (k' = k ∨ 1 < used.length)) ∧
  ∀ (b : Nat) (f : Frame) (left : List Byte) (i : Instr), decode (.frame b f) = .ok (i, left) →
    i.wellFormed = true ∧ encode i = .frame b f ∧ left = []

/-- A step runs the decoded instruction: where the line at the head of the script is a call that decodes to `i` and the host is not
held, the step is `exec i` at the state whose script has that call taken off, with bytes that are left over in its place (log 8,
log 10). -/
def Obligations.StepRunsDecoded : Prop :=
  ∀ (s : State) (rest : List Line), s.FAULT = false → s.blk = none →
    (∀ (k : Nat) (bs : List Byte) (i : Instr), s.script = .host (.bytes k bs) :: rest → decode (.bytes k bs) = .ok (i, []) →
      step s = exec i { s with script := rest }) ∧
    (∀ (k : Nat) (bs : List Byte) (i : Instr) (b : Byte) (left : List Byte), s.script = .host (.bytes k bs) :: rest →
      decode (.bytes k bs) = .ok (i, b :: left) →
      step s = exec i { s with script := .host (.bytes k (b :: left)) :: rest }) ∧
    ∀ (b : Nat) (f : Frame) (i : Instr), s.script = .host (.frame b f) :: rest → decode (.frame b f) = .ok (i, []) →
      step s = exec i { s with script := rest }

/-- 42_blocking_ops R212: while a blocking operation runs, no host line is taken: it stays, and the block takes a micro-step; the
clock and the transports move; at an empty script and at its own line the block takes a micro-step. The lines are log 8, the cut into
micro-steps log 9, what a waiting line does log 29. -/
def Obligations.HostHeldWhileBlocking : Prop :=
  ∀ (s : State) (B : Blocking), s.FAULT = false → s.blk = some B →
    (s.script = [] → step s = microStep B s) ∧
    ∀ (l : Line) (rest : List Line), s.script = l :: rest →
      (l = .block → step s = microStep B { s with script := rest }) ∧
      (∀ d, l = .clock d → step s = .next { s with CLK := s.CLK + d, script := rest }) ∧
      (∀ b c, l = .bus b c → step s = complete b c { s with script := rest }) ∧
      (l ≠ .block → (∀ d, l ≠ .clock d) → (∀ b c, l ≠ .bus b c) → step s = microStep B s)

/-- The lines of the other agents, where no blocking operation runs: the clock (10_state R40), a transport's completion, a line of
the block, the construction of an instance (70_reset_and_hazards R300), the density (R41), the derived quantities (43_compensation
R255 to R257) with the documented conversion factors; and the fault mark (10_state R45). The forms of the lines are the model's
choice, logs 6, 8, 23, 32; that the factors are binary32 patterns, 0.001 the nearest one, is log 35. -/
def Obligations.LinesOfOtherAgents : Prop :=
  (∀ s : State, s.FAULT = true → step s = .fault .runMarked) ∧
  (f32Value Config.factorMillibar = some 1 ∧ f32Value Config.factorPascal = some 100 ∧
    ∃ q, f32Value Config.factorBar = some q ∧ |q - 0.001| ≤ 1 / 2 ^ 34) ∧
  ∀ (s : State) (rest : List Line), s.FAULT = false → s.blk = none →
    (s.script = [] → step s = .next s) ∧
    (∀ d, s.script = .clock d :: rest → step s = .next { s with CLK := s.CLK + d, script := rest }) ∧
    (∀ b c, s.script = .bus b c :: rest → step s = complete b c { s with script := rest }) ∧
    (s.script = .block :: rest → step s = .next { s with script := rest }) ∧
    (∀ p b, s.script = .construct p b :: rest →
      (s.buses[b]? = none → step s = .refused .noSuchBus) ∧
      (s.buses[b]? ≠ none → ∃ S : Sensor, [S] = (State.launch [(p, b)] 0).sensors ∧
        step s = .next { s with sensors := s.sensors ++ [S], script := rest })) ∧
    (∀ v, s.script = .setDensity v :: rest → step s = .next { s with fluidDensity := v, script := rest }) ∧
    (∀ k q S, s.script = .derive k q :: rest → s.sensors[k]? = some S → S.profile = .PRES → S.val = none →
      step s = .fault .unwrittenValue) ∧
    ∀ k S P_bar temperature_C, s.sensors[k]? = some S → S.profile = .PRES → S.val = some (.pres P_bar temperature_C) →
      (∀ factor, s.script = .derive k (.pressure (some factor)) :: rest →
        step s = .next { s with ret := .float (Config.pressure P_bar factor), script := rest }) ∧
      (s.script = .derive k (.pressure none) :: rest →
        step s = .next { s with ret := .float (Config.pressure P_bar Config.factorMillibar), script := rest }) ∧
      (s.script = .derive k .depth :: rest →
        step s = .next { s with
          ret := .float (Config.depth (Config.pressure P_bar Config.factorPascal) s.fluidDensity), script := rest }) ∧
      (s.script = .derive k .altitude :: rest →
        step s = .next { s with ret := .float (Config.altitude (Config.pressure P_bar Config.factorMillibar)), script := rest })

/-- 41_sequencer R175, 60_exceptions R270: the poll, and the reading of the operation timer it is given. -/
def Obligations.PollTable : Prop :=
  (∀ elOp : Nat, poll true true elOp = .Failed ∧ poll true false elOp = .Done) ∧
  (∀ (err : Bool) (elOp : Nat), 200 < elOp → poll false err elOp = .TimedOut) ∧
  (∀ (err : Bool) (elOp : Nat), elOp ≤ 200 → poll false err elOp = .Pending) ∧
  ∀ (s : State) (S : Sensor) (T : Transport) (t0 : Nat), S.tOp = some t0 →
    pollOf s S T = poll T.finished T.error (s.CLK - t0)

/-- 41_sequencer R174: ADVANCE and TICK in `Idle`, on a free bus. -/
def Obligations.AdvanceInIdle : Prop :=
  ∀ (k : Nat) (s : State) (S : Sensor) (T : Transport), Has s k S T → S.profile = .TEMP → S.rs = .Idle → T.inflight = none →
    let t := withBus S.bus (justIssued (.write 0x77 [0x48] true) s)
      (withSensor k { S with rs := .StartConversion, tOp := some s.CLK } { s with draws := s.draws + 1 })
    exec (.advance k) s = .next { t with ret := .readState .StartConversion } ∧
    exec (.tick k) s = .next { t with ret := .tick .Running }

/-- 41_sequencer R176, R180, R182, 60_exceptions R262, R272: in a polling state, finished with error: one diagnostic with the
transport's error code, the state Error, and nothing else. -/
def Obligations.AdvanceOnFailedPoll : Prop :=
  ∀ (k : Nat) (s : State) (S : Sensor) (T : Transport), Has s k S T → S.profile = .TEMP →
    S.rs = .StartConversion ∨ S.rs = .RequestData ∨ S.rs = .WaitData → T.finished = true → T.error = true →
    let t := withSensor k { S with rs := .Error } { s with diag := s.diag ++ [.busErrorSeen T.errcode] }
    exec (.advance k) s = .next { t with ret := .readState .Error } ∧
    exec (.tick k) s = .next { t with ret := .tick .Failure }

/-- 41_sequencer R193, 60_exceptions R261, R272: in a polling state, not finished: nothing up to 200 ms after the stamp, and Error
with one diagnostic beyond. -/
def Obligations.AdvanceOnUnfinishedPoll : Prop :=
  ∀ (k : Nat) (s : State) (S : Sensor) (T : Transport) (t0 : Nat), Has s k S T → S.profile = .TEMP →
    S.rs = .StartConversion ∨ S.rs = .RequestData ∨ S.rs = .WaitData → T.finished = false → S.tOp = some t0 →
    (s.CLK ≤ t0 + 200 →
      exec (.advance k) s = .next { s with ret := .readState S.rs } ∧ exec (.tick k) s = .next { s with ret := .tick .Running }) ∧
    (t0 + 200 < s.CLK →
      let t := withSensor k { S with rs := .Error } { s with diag := s.diag ++ [.timeoutSeen] }
      exec (.advance k) s = .next { t with ret := .readState .Error } ∧
      exec (.tick k) s = .next { t with ret := .tick .Failure })

/-- 41_sequencer R176, the clean finish: the conversion timer is stamped with this tick's sample. -/
def Obligations.AdvanceDoneStartConversion : Prop :=
  ∀ (k : Nat) (s : State) (S : Sensor) (T : Transport), Has s k S T → S.profile = .TEMP → S.rs = .StartConversion →
    T.finished = true → T.error = false →
    let t := withSensor k { S with rs := .WaitConversion, tConv := some s.CLK } s
    exec (.advance k) s = .next { t with ret := .readState .WaitConversion } ∧
    exec (.tick k) s = .next { t with ret := .tick .Running }

/-- 41_sequencer R178: the delay of at least 10 ms, whatever the transport's status is. -/
def Obligations.AdvanceInWaitConversion : Prop :=
  ∀ (k : Nat) (s : State) (S : Sensor) (T : Transport) (t0 : Nat), Has s k S T → S.profile = .TEMP →
    S.rs = .WaitConversion → S.tConv = some t0 →
    (s.CLK < t0 + 10 →
      exec (.advance k) s = .next { s with ret := .readState .WaitConversion } ∧
      exec (.tick k) s = .next { s with ret := .tick .Running }) ∧
    (t0 + 10 ≤ s.CLK → T.inflight = none →
      let t := withBus S.bus (justIssued (.write 0x77 [0x00] true) s)
        (withSensor k { S with rs := .RequestData, tOp := some s.CLK } { s with draws := s.draws + 1 })
      exec (.advance k) s = .next { t with ret := .readState .RequestData } ∧
      exec (.tick k) s = .next { t with ret := .tick .Running })

/-- 41_sequencer R180, the clean finish: the read of 3 bytes is issued. -/
def Obligations.AdvanceDoneRequestData : Prop :=
  ∀ (k : Nat) (s : State) (S : Sensor) (T : Transport), Has s k S T → S.profile = .TEMP → S.rs = .RequestData →
    T.finished = true → T.error = false → T.inflight = none →
    let t := withBus S.bus (justIssued (.read 0x77 k 3 true) s)
      (withSensor k { S with rs := .WaitData, tOp := some s.CLK } { s with draws := s.draws + 1 })
    exec (.advance k) s = .next { t with ret := .readState .WaitData } ∧
    exec (.tick k) s = .next { t with ret := .tick .Running }

/-- 41_sequencer R182, R183, the clean finish: decode, compensate, store. Each byte of the count is the buffer's where a byte was
received; the reading is the configuration's `CompT` of `C[1]` to `C[5]` and `D1 / 256` where those words are the device's (log 19,
log 20). -/
def Obligations.AdvanceDoneWaitData : Prop :=
  ∀ (k : Nat) (s : State) (S : Sensor) (T : Transport), Has s k S T → S.profile = .TEMP → S.rs = .WaitData →
    T.finished = true → T.error = false →
    ∃ (d1 : U24) (v : FLOAT),
      (let t := withSensor k { S with rs := .Complete, rawD1 := some d1, val := some (.temp v) } { s with draws := s.draws + 1 }
       exec (.advance k) s = .next { t with ret := .readState .Complete } ∧
       exec (.tick k) s = .next { t with ret := .tick .Success }) ∧
      (∀ b, Memory.read S.buf 0 = some b → d1.toNat / 65536 = b.toNat) ∧
      (∀ b, Memory.read S.buf 1 = some b → d1.toNat / 256 % 256 = b.toNat) ∧
      (∀ b, Memory.read S.buf 2 = some b → d1.toNat % 256 = b.toNat) ∧
      ∀ c1 c2 c3 c4 c5, S.cal.C[1] = .word c1 → S.cal.C[2] = .word c2 → S.cal.C[3] = .word c3 → S.cal.C[4] = .word c4 →
        S.cal.C[5] = .word c5 → v = Config.compT c1 c2 c3 c4 c5 (BitVec.ofNat 16 (d1.toNat / 256))

/-- 41_sequencer R184, R185: the terminal states are sticky: ADVANCE, opcode 0x01, and TICK write nothing but the result. -/
def Obligations.TerminalStatesSticky : Prop :=
  (∀ (k : Nat) (rest : List Byte), decode (.bytes k (0x01 :: rest)) = .ok (.advance k, rest)) ∧
  ∀ (k : Nat) (s : State) (S : Sensor) (T : Transport), Has s k S T → S.profile = .TEMP →
    (S.rs = .Complete →
      exec (.advance k) s = .next { s with ret := .readState .Complete } ∧
      exec (.tick k) s = .next { s with ret := .tick .Success }) ∧
    (S.rs = .Error →
      exec (.advance k) s = .next { s with ret := .readState .Error } ∧
      exec (.tick k) s = .next { s with ret := .tick .Failure })

/-- 41_sequencer R172, R186: ADVANCE reports the state after the tick, TICK does the same step and maps that state. -/
def Obligations.TickMapsAdvance : Prop :=
  ∀ (k : Nat) (s t : State), exec (.advance k) s = .next t →
    ∃ S, t.sensors[k]? = some S ∧ t.ret = .readState S.rs ∧
      exec (.tick k) s = .next { t with ret := .tick (match S.rs with
        | .Complete => .Success
        | .Error => .Failure
        | .Idle | .StartConversion | .WaitConversion | .RequestData | .WaitData => .Running) }

/-- 41_sequencer R172: "ADVANCE never fails to return", in every sound state, under the premise `BusFreeAtIssue`. -/
def Obligations.AdvanceAlwaysSteps : Prop :=
  ∀ (k : Nat) (s : State) (S : Sensor), MachineInv s → BusFreeAtIssue k s → s.sensors[k]? = some S → S.profile = .TEMP →
    (∃ t, exec (.advance k) s = .next t) ∧ ∃ t, exec (.tick k) s = .next t

/-- 41_sequencer R171: admission by profile. -/
def Obligations.OperationsAdmitted : Prop :=
  ∀ (k : Nat) (s : State) (S : Sensor), s.sensors[k]? = some S →
    (S.profile = .PRES → ∀ i ∈ [Instr.advance k, .tick k, .query k, .reset k], exec i s = .refused .notAdmitted) ∧
    (S.profile = .TEMP → ∀ i ∈ [Instr.isInit k, .readBlocking k], exec i s = .refused .notAdmitted) ∧
    (S.profile = .TEMP → ∀ i ∈ [Instr.advance k, .tick k, .query k, .reset k, .getValue k, .init k],
      exec i s ≠ .refused .notAdmitted) ∧
    (S.profile = .PRES → ∀ i ∈ [Instr.getValue k, .init k, .isInit k, .readBlocking k], exec i s ≠ .refused .notAdmitted)

/-- 41_sequencer R187: QUERY, opcode 0x03, reads the pc and nothing else, and writes nothing but its result. -/
def Obligations.QueryReturnsStateAndPredicate : Prop :=
  (∀ (k : Nat) (rest : List Byte), decode (.bytes k (0x03 :: rest)) = .ok (.query k, rest)) ∧
  ∀ (k : Nat) (s : State) (S : Sensor), s.sensors[k]? = some S → S.profile = .TEMP →
    exec (.query k) s = .next { s with ret := .query S.rs (decide (S.rs = .Complete ∨ S.rs = .Error)) }

/-- 41_sequencer R188, 60_exceptions R274: RESET, from all seven states, writes the pc and nothing else. -/
def Obligations.ResetChangesOnlyPc : Prop :=
  ∀ (k : Nat) (s : State) (S : Sensor), s.sensors[k]? = some S → S.profile = .TEMP →
    exec (.reset k) s = .next { withSensor k { S with rs := .Idle } s with ret := .none }

/-- 41_sequencer R190, 10_state R48: GET_VALUE returns the last completed value, in every state and on both profiles, and faults
before any read completed. -/
def Obligations.GetValueReturnsLastReading : Prop :=
  ∀ (k : Nat) (s : State) (S : Sensor), s.sensors[k]? = some S →
    (∀ v, S.val = some v → exec (.getValue k) s = .next { s with ret := .value v }) ∧
    (S.val = none → exec (.getValue k) s = .fault .unwrittenValue)

/-- 20_memory R67, 70_reset_and_hazards R312: every operation that issues, on a busy bus, faults (log 6, log 7), and so does every
micro-step that issues: INIT at a word's command and at its read, READ_BLOCKING at the end of its delay. 42_blocking_ops R218 (a): after
a wait of INIT that timed out, the next issue meets the old transaction, however the clock moves in between. The cut into micro-steps
is log 9, that no delay stands between the wait and the issue log 17. -/
def Obligations.BusyBusFaults : Prop :=
  (∀ (k : Nat) (s : State) (S : Sensor) (T : Transport), Has s k S T → T.inflight ≠ none →
    (S.profile = .TEMP →
      S.rs = .Idle ∨ (∃ t0, S.rs = .WaitConversion ∧ S.tConv = some t0 ∧ t0 + 10 ≤ s.CLK) ∨
        (S.rs = .RequestData ∧ T.finished = true ∧ T.error = false) →
      exec (.advance k) s = .fault .busyIssue ∧ exec (.tick k) s = .fault .busyIssue) ∧
    (S.initOk = false → exec (.init k) s = .fault .busyIssue) ∧
    (S.profile = .PRES → exec (.readBlocking k) s = .fault .busyIssue)) ∧
  (∀ (B : Blocking) (s : State) (S : Sensor) (T : Transport), Has s B.sensor S T → T.inflight ≠ none →
    ((∃ w, B.phase = .cmdIssue w ∨ B.phase = .dataIssue w) → microStep B s = .fault .busyIssue) ∧
    (∀ t0, B.phase = .measureDelay → S.profile = .PRES → S.tConv = some t0 → t0 + 9 ≤ s.CLK →
      microStep B s = .fault .busyIssue) ∧
    (B.phase = .resetWait ∨ (∃ w, B.phase = .cmdWait w ∨ (B.phase = .dataWait w ∧ w + 1 < S.profile.nCal)) →
      pollOf s S T = .TimedOut →
      ∃ t B', microStep B s = .next t ∧ t.blk = some B' ∧ t.buses = s.buses ∧
        ∀ d, microStep B' { t with CLK := t.CLK + d } = .fault .busyIssue)) ∧
  ∀ (s : State) (b : Nat) (stop : Bool) (T : Transport), s.buses[b]? = some T → T.inflight ≠ none →
    ∀ i : Instr, i ∈ [.tReset b stop, .tConvert b stop, .tAdcRead b stop, .pMeasure b stop, .pMemCust0 b stop,
        .pMemCust1 b stop, .pMemScaling0 b stop, .pMemPminHi b stop, .pMemPminLo b stop, .pMemPmaxHi b stop,
        .pMemPmaxLo b stop] ∨ (∃ w, i = .tPromRead b w stop) → exec i s = .fault .busyIssue

/-- 41_sequencer R188, 60_exceptions R274, 70_reset_and_hazards R313: RESET cancels nothing, so the next ADVANCE meets the abandoned
transaction. -/
def Obligations.AbandonedTransactionFaults : Prop :=
  ∀ (k : Nat) (s : State) (S : Sensor) (T : Transport), Has s k S T → S.profile = .TEMP → T.inflight ≠ none →
    ∃ t, exec (.reset k) s = .next t ∧ t.buses = s.buses ∧ exec (.advance k) t = .fault .busyIssue ∧
      exec (.tick k) t = .fault .busyIssue

/-- 41_sequencer R173, R195, 70_reset_and_hazards R317: the pc of an instance moves only in a step that runs ADVANCE or TICK on it,
along the table of R173, or RESET on it, to Idle. -/
def Obligations.OnlyListedTransfers : Prop :=
  ∀ (k : Nat) (s t : State) (S S' : Sensor), step s = .next t → s.sensors[k]? = some S → t.sensors[k]? = some S' →
    S'.rs = S.rs ∨ (taken s = some (.reset k) ∧ S'.rs = .Idle) ∨
    (ticks k s = true ∧ (S.rs, S'.rs) ∈ [(ReadState.Idle, ReadState.StartConversion), (.StartConversion, .WaitConversion),
      (.StartConversion, .Error), (.WaitConversion, .RequestData), (.RequestData, .WaitData), (.RequestData, .Error),
      (.WaitData, .Complete), (.WaitData, .Error)])

/-- 41_sequencer R191: from Idle to Complete takes at least five ticks of the instance, whatever else happens in between. -/
def Obligations.FewerThanFiveTicksCannotComplete : Prop :=
  ∀ (k n : Nat) (s t : State) (S S' : Sensor), reaches s n t → s.sensors[k]? = some S → S.rs = .Idle →
    t.sensors[k]? = some S' → S'.rs = .Complete → 5 ≤ tickCount k n s

/-- 20_memory R79, 70_reset_and_hazards R314: under `SingleOwner`, an instance inside a cycle always polls its own transaction of
that phase; the caller does not run the instance's own INIT inside that cycle, a premise R314 does not name because its `SingleOwner`
is about other instances. A blocking operation satisfies it by itself, since the host is held (42_blocking_ops R212): it always polls
its own transaction, and while it runs a transaction comes only onto its instance's bus, addressed to that instance's device. -/
def Obligations.OwnTransactionKept : Prop :=
  (∀ (k : Nat) (s t : State), MachineInv s → OwnTransaction k s → step s = .next t → SingleOwner k s t → NoInitInsideCycle k t →
    OwnTransaction k t) ∧
  (∀ s t : State, MachineInv s → BlockingOwnTransaction s → step s = .next t → BlockingOwnTransaction t) ∧
  ∀ (s t : State) (B : Blocking) (b : Nat) (T T' : Transport) (tr : Transaction), s.blk = some B → step s = .next t →
    s.buses[b]? = some T → t.buses[b]? = some T' → T.inflight = none → T'.inflight = some tr →
    ∃ S, s.sensors[B.sensor]? = some S ∧ S.bus = b ∧ addressedBy B.sensor S tr

/-- 70_reset_and_hazards R317: every cycle reaches a terminal state, provided the host keeps ticking and the clock passes every
bound, whatever the transports do. -/
def Obligations.CycleReachesTerminal : Prop :=
  ∀ (k : Nat) (r : Nat → State) (feed : Nat → List Line) (S : Sensor), IsRun r feed → MachineInv (r 0) →
    (r 0).sensors[k]? = some S → S.profile = .TEMP → ClockAdvances r → HostKeepsTicking k r feed → NotAbandoned k r →
    ∃ n S', (r n).sensors[k]? = some S' ∧ (S'.rs = .Complete ∨ S'.rs = .Error)

/-- 41_sequencer R191, 95_test_vectors V40: the shortest successful cycle, for every reply and every delay of at least 10 ms, run as
one script of nine lines from a state in Idle on a free bus (log 8). -/
def Obligations.TempCycleSucceeds : Prop :=
  ∀ (k d n1 n2 : Nat) (b0 b1 b2 : Byte) (s : State) (S : Sensor) (T : Transport) (rest : List Line), Has s k S T →
    s.FAULT = false → s.blk = none → S.profile = .TEMP → S.rs = .Idle → T.inflight = none → 10 ≤ d → n1 ≤ 1 → n2 ≤ 1 →
    s.script = [.host (.bytes k [0x02]), .bus S.bus (.okWrite n1), .host (.bytes k [0x02]), .clock d, .host (.bytes k [0x02]),
      .bus S.bus (.okWrite n2), .host (.bytes k [0x02]), .bus S.bus (.okRead [b0, b1, b2]), .host (.bytes k [0x02])] ++ rest →
    ∃ t S', reaches s 9 t ∧ tickCount k 9 s = 5 ∧ t.ret = .tick .Success ∧ t.script = rest ∧ t.CLK = s.CLK + d ∧
      t.diag = s.diag ∧ (∀ j, j ≠ k → t.sensors[j]? = s.sensors[j]?) ∧
      t.sensors[k]? = some S' ∧ S'.rs = .Complete ∧ S'.rawD1 = some (b0 ++ b1 ++ b2) ∧ S'.cal = S.cal ∧
      ∀ c1 c2 c3 c4 c5, S.cal.C[1] = .word c1 → S.cal.C[2] = .word c2 → S.cal.C[3] = .word c3 → S.cal.C[4] = .word c4 →
        S.cal.C[5] = .word c5 → S'.val = some (.temp (Config.compT c1 c2 c3 c4 c5 (b0 ++ b1)))

/-- 41_sequencer R189, 40_codec R160: in a sound state a timer that a tick would read was written, and its reading is the exact
time since. -/
def Obligations.TimersReadAfterWrite : Prop :=
  ∀ (k : Nat) (s : State) (S : Sensor), MachineInv s → s.sensors[k]? = some S →
    (S.rs = .StartConversion ∨ S.rs = .RequestData ∨ S.rs = .WaitData →
      ∃ t0, S.tOp = some t0 ∧ t0 + elapsed s S.tOp = s.CLK) ∧
    (S.rs = .WaitConversion → ∃ t0, S.tConv = some t0 ∧ t0 + elapsed s S.tConv = s.CLK)

/-- 40_codec R140, R142: the byte unpackers, as shifts and ORs and as numbers; every operand pair has a result of its own. -/
def Obligations.ByteUnpackers : Prop :=
  (∀ (hi lo : Byte) (s : State),
    exec (.decode16 hi lo) s = .next { s with ret := .u16 ((hi.setWidth 16 <<< 8) ||| lo.setWidth 16) } ∧
    (decode16 hi lo).toNat = 256 * hi.toNat + lo.toNat) ∧
  (∀ hi lo hi' lo' : Byte, decode16 hi lo = decode16 hi' lo' → hi = hi' ∧ lo = lo') ∧
  ∀ (b0 b1 b2 : Byte) (s : State),
    exec (.decode24 b0 b1 b2) s =
      .next { s with ret := .u24 ((b0.setWidth 24 <<< 16) ||| (b1.setWidth 24 <<< 8) ||| b2.setWidth 24) } ∧
    (decode24 b0 b1 b2).toNat = 65536 * b0.toNat + 256 * b1.toNat + b2.toNat ∧
    (decode24 b0 b1 b2).toNat / 256 = (decode16 b0 b1).toNat

/-- 40_codec R144, R145: the word reassembler and its inverse; no bit is lost. -/
def Obligations.WordReassembler : Prop :=
  (∀ (hi16 lo16 : U16) (s : State),
    exec (.decode32 hi16 lo16) s = .next { s with ret := .u32 ((hi16.setWidth 32 <<< 16) ||| lo16.setWidth 32) } ∧
    (decode32 hi16 lo16).toNat = 65536 * hi16.toNat + lo16.toNat ∧ split32 (decode32 hi16 lo16) = (hi16, lo16)) ∧
  ∀ (u : U32) (s : State),
    exec (.split32 u) s =
      .next { s with ret := .pair (BitVec.ofNat 16 (u.toNat / 65536)) (BitVec.ofNat 16 (u.toNat % 65536)) } ∧
    decode32 (split32 u).1 (split32 u).2 = u

/-- 40_codec R146 to R148: the reinterpretations change no bit, are inverse to one another, and every float survives the trip through
two halves bit for bit. -/
def Obligations.FloatReinterpretation : Prop :=
  (∀ (u : U32) (s : State), exec (.bitcastF32 u) s = .next { s with ret := .f32 ⟨u⟩ } ∧ bitcastU32 (bitcastF32 u) = u) ∧
  (∀ (f : F32) (s : State), exec (.bitcastU32 f) s = .next { s with ret := .u32 f.bits }) ∧
  (∀ u u' : U32, bitcastF32 u = bitcastF32 u' → u = u') ∧
  ∀ f : F32, bitcastF32 (decode32 (split32 (bitcastU32 f)).1 (split32 (bitcastU32 f)).2) = f

/-- 40_codec R158: the laws of the codec. -/
def Obligations.CodecLaws : Prop :=
  (∀ hi lo : Byte, (decode16 hi lo).toNat / 256 = hi.toNat ∧ (decode16 hi lo).toNat % 256 = lo.toNat) ∧
  (∀ h l : U16, (decode32 h l).toNat / 65536 = h.toNat ∧ (decode32 h l).toNat % 65536 = l.toNat) ∧
  (∀ a b c d : Byte, (decode32 (decode16 a b) (decode16 c d)).toNat =
    ((a.toNat * 256 + b.toNat) * 256 + c.toNat) * 256 + d.toNat) ∧
  (∀ (draw a : Nat) (m : Memory),
    (decode32 (decode16 (Memory.cell draw m a) (Memory.cell draw m (a + 1)))
      (decode16 (Memory.cell draw m (a + 2)) (Memory.cell draw m (a + 3)))).toNat = Memory.memRead draw m a 4) ∧
  ∀ w : U16, (fieldEquip w).toNat * 1024 + (w.getLsbD 9).toNat * 512 + (fieldPlace w).toNat = w.toNat

/-- 40_codec R150 to R153: the identity fields; the code 63 is exactly that of the words from 0xFC00 on. -/
def Obligations.IdentityFields : Prop :=
  (∀ (w0 : U16) (s : State),
    exec (.fieldEquip w0) s = .next { s with ret := .field6 (BitVec.ofNat 6 (w0.toNat / 1024)) } ∧
    (fieldEquip w0 = 63 ↔ 0xFC00 ≤ w0.toNat) ∧
    exec (.fieldPlace w0) s = .next { s with ret := .field9 (BitVec.ofNat 9 (w0.toNat % 512)) }) ∧
  (∀ (w1 : U16) (s : State), exec (.fieldFile w1) s = .next { s with ret := .u16 w1 }) ∧
  ∀ (w0 w1 : U16) (s : State),
    exec (.fieldCode w0 w1) s = .next { s with ret := .u32 ((w0.setWidth 32 <<< 16) ||| w1.setWidth 32) } ∧
    (fieldCode w0 w1).getLsbD 25 = w0.getLsbD 9

/-- 40_codec R154, R155, at the positions 30_encoding R122 takes by default (log 16). -/
def Obligations.ScalingFields : Prop :=
  ∀ (s0 : U16) (s : State),
    exec (.fieldMode s0) s = .next { s with ret := .field2 (BitVec.ofNat 2 (s0.toNat % 4)) } ∧
    exec (.fieldDate s0) s =
      .next { s with ret := .date (s0.toNat / 2048 + 2010) (s0.toNat / 128 % 16) (s0.toNat / 4 % 32) }

/-- 30_encoding R108, R110, 20_memory R67: each bus command row puts its frame in flight on the named bus, if that is free, and
changes nothing else (log 11). -/
def Obligations.BusCommandsIssueFrames : Prop :=
  ∀ (s : State) (b : Nat) (stop : Bool) (T : Transport), s.buses[b]? = some T → T.inflight = none →
    let sent := fun (addr : BusAddr) (cmd : Byte) =>
      { withBus b (justIssued (.write addr [cmd] stop) s) s with ret := .none, draws := s.draws + 1 }
    exec (.tReset b stop) s = .next (sent 0x77 0x1E) ∧
    exec (.tConvert b stop) s = .next (sent 0x77 0x48) ∧
    exec (.tAdcRead b stop) s = .next (sent 0x77 0x00) ∧
    (∀ w < 8, ∃ cmd : Byte, cmd.toNat = 0xA0 + 2 * w ∧ exec (.tPromRead b w stop) s = .next (sent 0x77 cmd)) ∧
    exec (.pMeasure b stop) s = .next (sent 0x40 0xAC) ∧
    exec (.pMemCust0 b stop) s = .next (sent 0x40 0x00) ∧
    exec (.pMemCust1 b stop) s = .next (sent 0x40 0x01) ∧
    exec (.pMemScaling0 b stop) s = .next (sent 0x40 0x12) ∧
    exec (.pMemPminHi b stop) s = .next (sent 0x40 0x13) ∧
    exec (.pMemPminLo b stop) s = .next (sent 0x40 0x14) ∧
    exec (.pMemPmaxHi b stop) s = .next (sent 0x40 0x15) ∧
    exec (.pMemPmaxLo b stop) s = .next (sent 0x40 0x16)

/-- 20_memory R68, R70, R74: what a completion leaves, with every byte of the buffers. A completed write and its error code stay as
they are but for the status; a completed read fills the cells from 0 upward, and the cells asked for but not received hold no known
byte; a failed read leaves no known byte in the buffer (log 21). -/
def Obligations.TransportCompletion : Prop :=
  ∀ (s : State) (b : Nat) (T : Transport), s.buses[b]? = some T →
    (∀ addr bytes stop n, T.inflight = some (.write addr bytes stop) → n ≤ bytes.length →
      complete b (.okWrite n) s = .next (withBus b ⟨none, true, false, T.errcode, n⟩ s) ∧
      ∀ code, complete b (.err code n) s = .next (withBus b ⟨none, true, true, code, n⟩ s)) ∧
    (∀ addr dest n stop (S : Sensor), T.inflight = some (.read addr dest n stop) → s.sensors[dest]? = some S →
      Memory.wf S.buf = true → n ≤ 5 →
      (∀ data : List Byte, data.length ≤ n →
        ∃ buf, complete b (.okRead data) s =
            .next (withBus b ⟨none, true, false, T.errcode, data.length⟩ (withSensor dest { S with buf := buf } s)) ∧
          Memory.wf buf = true ∧
          ∀ a, Memory.read buf a = if a < data.length then data[a]? else if a < n then none else Memory.read S.buf a) ∧
      ∀ code m, m ≤ n →
        ∃ buf, complete b (.err code m) s =
            .next (withBus b ⟨none, true, true, code, m⟩ (withSensor dest { S with buf := buf } s)) ∧
          ∀ a, Memory.read buf a = none) ∧
    (T.inflight = none → ∀ c, complete b c s = .refused .nothingInFlight)

/-- 10_state R21, R22, R40, 42_blocking_ops R225: in every step the clock does not go back, no instance is lost or changes its
profile or bus, no bus is lost, and the pc of a PRES instance does not change. -/
def Obligations.StepKeepsIdentity : Prop :=
  ∀ s t : State, step s = .next t →
    s.CLK ≤ t.CLK ∧ t.buses.length = s.buses.length ∧ t.FAULT = s.FAULT ∧
    ∀ (k : Nat) (S : Sensor), s.sensors[k]? = some S →
      ∃ S', t.sensors[k]? = some S' ∧ S'.profile = S.profile ∧ S'.bus = S.bus ∧ (S.profile = .PRES → S'.rs = S.rs)

/-- 42_blocking_ops R210, R211, R215, R219: how INIT begins on either profile: the first transaction is issued, the operation timer
stamped, and the block waits; and that it is refused after an INIT that returned true. -/
def Obligations.InitBegins : Prop :=
  ∀ (k : Nat) (s : State) (S : Sensor) (T : Transport), Has s k S T →
    (S.initOk = true → exec (.init k) s = .refused .alreadyInitialised) ∧
    (S.initOk = false → T.inflight = none →
      let begun := fun (addr : BusAddr) (cmd : Byte) (ph : Phase) =>
        { withBus S.bus (justIssued (.write addr [cmd] true) s) (withSensor k { S with tOp := some s.CLK } s) with
          blk := some ⟨k, ph, 0⟩, ret := .none, draws := s.draws + 1 }
      (S.profile = .TEMP → exec (.init k) s = .next (begun 0x77 0x1E .resetWait)) ∧
      (S.profile = .PRES → exec (.init k) s = .next (begun 0x40 0x00 (.cmdWait 0))))

/-- 42_blocking_ops R213 to R216, R218, R219: the micro-steps of INIT up to the end of a word's read. A bounded wait goes on while it
is pending, and ends, whatever its outcome, with the delay of 0 ms that R10 takes (log 17); then the word's command is issued, or
its read. The stop bit `true` is log 13, the cut into micro-steps log 9. -/
def Obligations.InitMicroSteps : Prop :=
  ∀ (B : Blocking) (s : State) (S : Sensor) (T : Transport), Has s B.sensor S T →
    (∀ w next, (B.phase = .resetWait ∧ next = .cmdIssue 0) ∨ (B.phase = .cmdWait w ∧ next = .dataIssue w) →
      let ended := fun (events : List DiagEvent) =>
        { withSensor B.sensor { S with tConv := some s.CLK } s with
          diag := s.diag ++ events, blk := some { B with phase := next } }
      (pollOf s S T = .Pending → microStep B s = .next s) ∧
      (pollOf s S T = .Done → microStep B s = .next (ended [])) ∧
      (pollOf s S T = .Failed → microStep B s = .next (ended [.busErrorSeen T.errcode])) ∧
      (pollOf s S T = .TimedOut → microStep B s = .next (ended [.timeoutSeen]))) ∧
    (∀ w, B.phase = .cmdIssue w → T.inflight = none →
      let sent := fun (cmd : Byte) =>
        { withBus S.bus (justIssued (.write S.profile.addr [cmd] true) s)
            (withSensor B.sensor { S with tOp := some s.CLK } s) with
          blk := some { B with phase := .cmdWait w }, draws := s.draws + 1 }
      (S.profile = .TEMP → w < 8 → ∃ cmd : Byte, cmd.toNat = 0xA0 + 2 * w ∧ microStep B s = .next (sent cmd)) ∧
      (S.profile = .PRES → ∀ cmd : Byte, ([0x00, 0x01, 0x12, 0x13, 0x14, 0x15, 0x16] : List Byte)[w]? = some cmd →
        microStep B s = .next (sent cmd))) ∧
    ∀ w, B.phase = .dataIssue w → T.inflight = none →
      let sent := fun (n : Nat) =>
        { withBus S.bus (justIssued (.read S.profile.addr B.sensor n true) s)
            (withSensor B.sensor { S with tOp := some s.CLK } s) with
          blk := some { B with phase := .dataWait w }, draws := s.draws + 1 }
      (S.profile = .TEMP → microStep B s = .next (sent 2)) ∧ (S.profile = .PRES → microStep B s = .next (sent 3))

/-- 42_blocking_ops R216, R218, R219, 20_memory R74: the end of a word's read that is not the last. The word is the device's if the
read was good and both bytes were received, and a drawn value, kept, otherwise (log 5); the bytes are counted unless the wait timed
out; INIT goes on with the next word whatever the outcome. The step is a micro-step by log 9. -/
def Obligations.InitWordStored : Prop :=
  ∀ (B : Blocking) (s : State) (S : Sensor) (T : Transport) (w : Nat), Has s B.sensor S T → B.phase = .dataWait w →
    w + 1 < S.profile.nCal →
    (pollOf s S T = .Pending → microStep B s = .next s) ∧
    (pollOf s S T ≠ .Pending → ∃ v : CalWord,
      (let stored := fun (cal : Cal) (counted : Int) (events : List DiagEvent) =>
        { withSensor B.sensor { S with cal := cal } s with
          diag := s.diag ++ events, blk := some { B with phase := .cmdIssue (w + 1), total := B.total + counted },
          draws := s.draws + 1 }
       let cal := match S.profile with
        | .TEMP => { S.cal with C := S.cal.C.setIfInBounds w v }
        | .PRES => { S.cal with W := PresWords.put S.cal.W w v }
       (pollOf s S T = .Done → microStep B s = .next (stored cal T.nbytes [])) ∧
       (pollOf s S T = .Failed → microStep B s = .next (stored cal T.nbytes [.busErrorSeen T.errcode])) ∧
       (pollOf s S T = .TimedOut → microStep B s = .next (stored cal 0 [.timeoutSeen]))) ∧
      (pollOf s S T ≠ .Done → ∃ u, v = .drawn u) ∧
      (pollOf s S T = .Done →
        (S.profile = .TEMP ∧ (Memory.read S.buf 0 = none ∨ Memory.read S.buf 1 = none)) ∨
          (S.profile = .PRES ∧ (Memory.read S.buf 1 = none ∨ Memory.read S.buf 2 = none)) → ∃ u, v = .drawn u) ∧
      ∀ hi lo : Byte, pollOf s S T = .Done →
        (S.profile = .TEMP → Memory.read S.buf 0 = some hi → Memory.read S.buf 1 = some lo → v = .word (hi ++ lo)) ∧
        (S.profile = .PRES → Memory.read S.buf 1 = some hi → Memory.read S.buf 2 = some lo → v = .word (hi ++ lo)))

/-- 42_blocking_ops R210, R220, R222, R223, 60_exceptions R264: the end of INIT, at the end of the last word's read, stored as every
word is (20_memory R74; log 5): the fields are decoded (PRES), one report is emitted, and `init_ok` and the result say whether any
byte was counted. The pc is not touched. The step is a micro-step by log 9. -/
def Obligations.InitEnds : Prop :=
  ∀ (B : Blocking) (s : State) (S : Sensor) (T : Transport) (w : Nat) (ok : Bool), Has s B.sensor S T →
    B.phase = .dataWait w → w + 1 = S.profile.nCal → pollOf s S T ≠ .Pending →
    (ok = true ↔ B.total + (if pollOf s S T = .TimedOut then 0 else T.nbytes) ≠ 0) →
    ∃ (v : CalWord) (event : List DiagEvent),
      (let ended := fun (cal : Cal) (report : Option IdentityReport) =>
        { withSensor B.sensor { S with cal := cal, initOk := ok } s with
          diag := s.diag ++ event ++ [.initReport report], blk := none, ret := .bool ok, draws := s.draws + 2 }
       (S.profile = .TEMP → microStep B s = .next (ended { S.cal with C := S.cal.C.setIfInBounds w v } none)) ∧
       (S.profile = .PRES →
         let W := PresWords.put S.cal.W w v
         let f := decodeFields (s.draws + 1) W
         microStep B s = .next (ended { S.cal with W := W, fields := some f }
          (some ⟨f.code, f.equipment, f.place, f.file, f.mode, f.year, f.month, f.day, f.P_min, f.P_max⟩)))) ∧
      event = (match pollOf s S T with
        | .Failed => [.busErrorSeen T.errcode]
        | .TimedOut => [.timeoutSeen]
        | .Done | .Pending => []) ∧
      (pollOf s S T ≠ .Done → ∃ u, v = .drawn u) ∧
      (pollOf s S T = .Done →
        (S.profile = .TEMP ∧ (Memory.read S.buf 0 = none ∨ Memory.read S.buf 1 = none)) ∨
          (S.profile = .PRES ∧ (Memory.read S.buf 1 = none ∨ Memory.read S.buf 2 = none)) → ∃ u, v = .drawn u) ∧
      ∀ hi lo : Byte, pollOf s S T = .Done →
        (S.profile = .TEMP → Memory.read S.buf 0 = some hi → Memory.read S.buf 1 = some lo → v = .word (hi ++ lo)) ∧
        (S.profile = .PRES → Memory.read S.buf 1 = some hi → Memory.read S.buf 2 = some lo → v = .word (hi ++ lo))

/-- 42_blocking_ops R220, 10_state R31, R34: the decoded fields, as numbers, of a store whose words are the device's. The positions
in the scaling word are log 16; the patterns of `P_mode` are log 18. -/
def Obligations.DecodedFields : Prop :=
  ∀ (draw : Nat) (w00 w01 w12 w13 w14 w15 w16 : U16),
    let f := decodeFields draw ⟨.word w00, .word w01, .word w12, .word w13, .word w14, .word w15, .word w16⟩
    f.equipment.toNat = w00.toNat / 1024 ∧ f.place.toNat = w00.toNat % 512 ∧ f.file = w01 ∧
    f.code.toNat = 65536 * w00.toNat + w01.toNat ∧ f.mode.toNat = w12.toNat % 4 ∧ f.year = w12.toNat / 2048 + 2010 ∧
    f.month = w12.toNat / 128 % 16 ∧ f.day = w12.toNat / 4 % 32 ∧
    f.P_min.bits.toNat = 65536 * w13.toNat + w14.toNat ∧ f.P_max.bits.toNat = 65536 * w15.toNat + w16.toNat ∧
    (f.mode = 0 → ∃ q, f32Value f.P_mode = some q ∧ |q - 1.01325| ≤ 1 / 2 ^ 24) ∧
    (f.mode = 1 → f32Value f.P_mode = some 1) ∧
    (f.mode ≠ 0 → f.mode ≠ 1 → f32Value f.P_mode = some 0)

/-- 42_blocking_ops R224, 60_exceptions R266: IS_INIT is false exactly when the decoded equipment code is 63; before any INIT it
returns some bool (log 5). -/
def Obligations.IsInitResult : Prop :=
  ∀ (k : Nat) (s : State) (S : Sensor), s.sensors[k]? = some S → S.profile = .PRES →
    (∀ f, S.cal.fields = some f → f.equipment ≠ 63 → exec (.isInit k) s = .next { s with ret := .bool true }) ∧
    (∀ f, S.cal.fields = some f → f.equipment = 63 → exec (.isInit k) s = .next { s with ret := .bool false }) ∧
    (S.cal.fields = none → ∃ b, exec (.isInit k) s = .next { s with ret := .bool b, draws := s.draws + 1 })

/-- 42_blocking_ops R225, R226, phase 1, and R213, the start of the wait. -/
def Obligations.ReadBlockingBegins : Prop :=
  ∀ (k : Nat) (s : State) (S : Sensor) (T : Transport), Has s k S T → S.profile = .PRES → T.inflight = none →
    exec (.readBlocking k) s =
      .next { withBus S.bus (justIssued (.write 0x40 [0xAC] true) s) (withSensor k { S with tOp := some s.CLK } s) with
        blk := some ⟨k, .measureWait, 0⟩, ret := .none, draws := s.draws + 1 }

/-- 42_blocking_ops R214, R226, R228: phases 2 to 8. The delay ends at the first sample at least 9 ms after its start; then the read
of 5 bytes is issued; a clean finish replaces the raw values and both components of the reading, and the result is Success. The stop
bit `true` is log 13, the cut into micro-steps log 9. -/
def Obligations.ReadBlockingPhases : Prop :=
  ∀ (B : Blocking) (s : State) (S : Sensor) (T : Transport), Has s B.sensor S T → S.profile = .PRES →
    (B.phase = .measureWait ∨ B.phase = .measureData → pollOf s S T = .Pending → microStep B s = .next s) ∧
    (B.phase = .measureWait → pollOf s S T = .Done →
      microStep B s = .next { withSensor B.sensor { S with tConv := some s.CLK } s with
        blk := some { B with phase := .measureDelay } }) ∧
    (∀ t0, B.phase = .measureDelay → S.tConv = some t0 →
      (s.CLK < t0 + 9 → microStep B s = .next s) ∧
      (t0 + 9 ≤ s.CLK → T.inflight = none →
        microStep B s =
          .next { withBus S.bus (justIssued (.read 0x40 B.sensor 5 true) s) (withSensor B.sensor { S with tOp := some s.CLK } s) with
            blk := some { B with phase := .measureData }, draws := s.draws + 1 })) ∧
    (B.phase = .measureData → pollOf s S T = .Done →
      ∃ (status : Byte) (P T_raw : U16) (P_bar : FLOAT),
        microStep B s =
          .next { withSensor B.sensor { S with rawPres := some ⟨status, P, T_raw⟩,
                                               val := some (.pres P_bar (Config.compPT ((T_raw.toNat / 16 : Nat) - 24))) } s with
            blk := none, ret := .tick .Success, draws := s.draws + 1 } ∧
        (∀ b, Memory.read S.buf 0 = some b → status = b) ∧
        (∀ hi lo, Memory.read S.buf 1 = some hi → Memory.read S.buf 2 = some lo → P = hi ++ lo) ∧
        (∀ hi lo, Memory.read S.buf 3 = some hi → Memory.read S.buf 4 = some lo → T_raw = hi ++ lo) ∧
        ∀ f v12 v13 v14 v15 v16, S.cal.fields = some f → f.equipment ≠ 63 → S.cal.W.w12 = .word v12 → S.cal.W.w13 = .word v13 →
          S.cal.W.w14 = .word v14 → S.cal.W.w15 = .word v15 → S.cal.W.w16 = .word v16 →
          P_bar = Config.compP f.P_min f.P_max f.P_mode ((P.toNat : Int) - 16384))

/-- 42_blocking_ops R229: a wait that fails or times out ends READ_BLOCKING with Failure, one diagnostic, and nothing else. The step
is a micro-step by log 9. -/
def Obligations.ReadBlockingFails : Prop :=
  ∀ (B : Blocking) (s : State) (S : Sensor) (T : Transport), Has s B.sensor S T →
    B.phase = .measureWait ∨ B.phase = .measureData →
    (pollOf s S T = .Failed →
      microStep B s = .next { s with diag := s.diag ++ [.busErrorSeen T.errcode], blk := none, ret := .tick .Failure }) ∧
    (pollOf s S T = .TimedOut →
      microStep B s = .next { s with diag := s.diag ++ [.timeoutSeen], blk := none, ret := .tick .Failure })

/-- 42_blocking_ops R226, 95_test_vectors P5: READ_BLOCKING from its call to its result, for every reply and every delay of at least
9 ms, run as one script of seven lines on a free bus (logs 8, 9). -/
def Obligations.ReadBlockingSucceeds : Prop :=
  ∀ (k d n : Nat) (status p1 p0 t1 t0 : Byte) (s : State) (S : Sensor) (T : Transport) (rest : List Line), Has s k S T →
    s.FAULT = false → s.blk = none → S.profile = .PRES → T.inflight = none → 9 ≤ d → n ≤ 1 →
    s.script = [.host (.bytes k [0x08]), .bus S.bus (.okWrite n), .block, .clock d, .block,
      .bus S.bus (.okRead [status, p1, p0, t1, t0]), .block] ++ rest →
    ∃ t S', reaches s 7 t ∧ t.blk = none ∧ t.ret = .tick .Success ∧ t.script = rest ∧ t.diag = s.diag ∧
      (∀ j, j ≠ k → t.sensors[j]? = s.sensors[j]?) ∧
      t.sensors[k]? = some S' ∧ S'.rs = S.rs ∧ S'.cal = S.cal ∧ S'.rawPres = some ⟨status, p1 ++ p0, t1 ++ t0⟩ ∧
      ∀ f v12 v13 v14 v15 v16, S.cal.fields = some f → f.equipment ≠ 63 → S.cal.W.w12 = .word v12 → S.cal.W.w13 = .word v13 →
        S.cal.W.w14 = .word v14 → S.cal.W.w15 = .word v15 → S.cal.W.w16 = .word v16 →
        S'.val = some (.pres (Config.compP f.P_min f.P_max f.P_mode ((256 * p1.toNat + p0.toNat : Nat) - 16384))
          (Config.compPT (((256 * t1.toNat + t0.toNat) / 16 : Nat) - 24)))

/-- 42_blocking_ops R210, R219, R220, 95_test_vectors V61: INIT of a PRES instance from its call to its result, for every seven words
and every status byte, run as one script of prompt and good transactions (logs 8, 9); that it takes 43 steps while the clock stands
still rests on the delay of 0 ms (log 17). INIT of a TEMP instance is `InitBegins`, `InitMicroSteps`, `InitWordStored`,
`InitEnds`. -/
def Obligations.InitPresSucceeds : Prop :=
  ∀ (k : Nat) (r00 r01 r12 r13 r14 r15 r16 : Byte × Byte × Byte) (s : State) (S : Sensor) (T : Transport) (rest : List Line),
    Has s k S T → s.FAULT = false → s.blk = none → S.profile = .PRES → S.initOk = false → T.inflight = none →
    s.script = .host (.bytes k [0x06]) :: ([r00, r01, r12, r13, r14, r15, r16].flatMap (wordLines S.bus)) ++ rest →
    ∃ t S' draw, reaches s 43 t ∧ t.blk = none ∧ t.ret = .bool true ∧ t.script = rest ∧
      (∀ j, j ≠ k → t.sensors[j]? = s.sensors[j]?) ∧ t.sensors[k]? = some S' ∧ S'.rs = S.rs ∧ S'.val = S.val ∧
      S'.initOk = true ∧
      S'.cal.W = ⟨replyWord r00, replyWord r01, replyWord r12, replyWord r13, replyWord r14, replyWord r15, replyWord r16⟩ ∧
      S'.cal.fields = some (decodeFields draw S'.cal.W) ∧
      t.diag = s.diag ++ [.initReport (some (reportOf (decodeFields draw S'.cal.W)))]

/-- 10_state R33, R43, 60_exceptions R278: the Calibration Store changes only in a micro-step of INIT on its instance, at the end of
a word's read; in a sound state it never changes again once an INIT has returned true. -/
def Obligations.CalibrationWrittenOnlyByInit : Prop :=
  ∀ (k : Nat) (s t : State) (S S' : Sensor), step s = .next t → s.sensors[k]? = some S → t.sensors[k]? = some S' →
    ((S'.cal = S.cal ∧ S'.initOk = S.initOk) ∨ ∃ B w, s.blk = some B ∧ B.sensor = k ∧ B.phase = .dataWait w) ∧
    (MachineInv s → S.initOk = true → S'.cal = S.cal ∧ S'.initOk = true)

/-- 10_state R29, R48: the reading changes only in the tick that enters Complete, or in the last micro-step of READ_BLOCKING, each
after a clean finish. -/
def Obligations.ValueWrittenOnlyByCompletion : Prop :=
  ∀ (k : Nat) (s t : State) (S S' : Sensor), step s = .next t → s.sensors[k]? = some S → t.sensors[k]? = some S' →
    S'.val = S.val ∨
    ∃ T, s.buses[S.bus]? = some T ∧ T.finished = true ∧ T.error = false ∧
      ((ticks k s = true ∧ S.rs = .WaitData ∧ S'.rs = .Complete) ∨
       ∃ B, s.blk = some B ∧ B.sensor = k ∧ B.phase = .measureData ∧ t.ret = .tick .Success)

/-- 41_sequencer R172, R188, 20_memory R77, 60_exceptions R284: what no operation changes by itself: the clock, the density, the
script, the fault mark; of every instance its profile, bus, store, init_ok, pressure raw values and every byte of its buffer; an
instance the operation is not on, altogether; and every bus but the one it issues on. -/
def Obligations.OperationFrame : Prop :=
  ∀ (i : Instr) (s t : State), exec i s = .next t →
    t.CLK = s.CLK ∧ t.fluidDensity = s.fluidDensity ∧ t.script = s.script ∧ t.FAULT = s.FAULT ∧
    t.sensors.length = s.sensors.length ∧ t.buses.length = s.buses.length ∧
    (∀ (k : Nat) (S : Sensor), s.sensors[k]? = some S →
      ∃ S', t.sensors[k]? = some S' ∧ S'.profile = S.profile ∧ S'.bus = S.bus ∧ S'.cal = S.cal ∧ S'.initOk = S.initOk ∧
        S'.rawPres = S.rawPres ∧ (∀ a, Memory.read S'.buf a = Memory.read S.buf a) ∧ (subject i ≠ some k → S' = S)) ∧
    ∀ b, namedBus i ≠ some b → (∀ k S, subject i = some k → s.sensors[k]? = some S → S.bus ≠ b) →
      t.buses[b]? = s.buses[b]?

/-- 70_reset_and_hazards R320: the timers' difference is exact for the unbounded clock the spec takes, and, with a counter of `bits`
bits that wraps, exact for every time shorter than the wrap. -/
def Obligations.TimerDifferenceExact : Prop :=
  (∀ (s : State) (t0 d : Nat), s.CLK = t0 + d → elapsed s (some t0) = d) ∧
  ∀ bits now stamp d : Nat, now = stamp + d → d < 2 ^ bits → elapsedAt (some bits) (now % 2 ^ bits) (stamp % 2 ^ bits) = d

/-- 43_compensation R249, R252, R254, 40_codec R160: the integer steps are exact, truncating and signed; the low byte of the count
and the low four bits of the temperature word never matter. -/
def Obligations.CompensationIntegerSteps : Prop :=
  (∀ d1 : U24, (adcOf d1).toNat = d1.toNat / 256 ∧ adcOf d1 = d1.extractLsb' 8 16) ∧
  (∀ (c1 c2 c3 c4 c5 : U16) (d1 d1' : U24), d1.toNat / 256 = d1'.toNat / 256 →
    compT c1 c2 c3 c4 c5 d1 = compT c1 c2 c3 c4 c5 d1') ∧
  (∀ P : U16, pressureCount P + 16384 = P.toNat ∧ -16384 ≤ pressureCount P ∧ pressureCount P ≤ 49151) ∧
  (∀ T_raw : U16, temperatureCount T_raw + 24 = (T_raw >>> 4).toNat ∧ -24 ≤ temperatureCount T_raw ∧
    temperatureCount T_raw ≤ 4071) ∧
  (∀ T_raw T_raw' : U16, T_raw.toNat / 16 = T_raw'.toNat / 16 → compPT T_raw = compPT T_raw') ∧
  ∀ (f : PresFields) (P : U16), compP f P = Config.compP f.P_min f.P_max f.P_mode ((P.toNat : Int) - 16384)

/-- 43_compensation R250, R253, R254, R256, R257: the reference formulas: the worked example of R250, the midpoint identity, the
upper point and the slope of the pressure, the range of the temperature, the zero of the depth for a non-zero density, and the zero
of the altitude. -/
def Obligations.ReferenceFormulas : Prop :=
  (|refT 28446 24926 36016 32791 40781 36635 - 10.5773| < 0.0001) ∧
  (∀ pMin pMax pMode : Rat, refP pMin pMax pMode 16384 = pMin + pMode ∧ refP pMin pMax pMode 49152 = pMax + pMode) ∧
  (∀ (pMin pMax pMode : Rat) (P P' : U16),
    refP pMin pMax pMode P - refP pMin pMax pMode P' = ((P.toNat : Rat) - P'.toNat) * ((pMax - pMin) / 32768)) ∧
  (∀ T_raw : U16, -51.2 ≤ refPT T_raw ∧ refPT T_raw ≤ 153.55) ∧ (∀ T_raw : U16, T_raw.toNat < 16 → refPT T_raw = -51.2) ∧
  (∀ density : Rat, density ≠ 0 → refDepth 101325 density = 0) ∧
  AltitudeReference 1013.25 0

/-- 70_reset_and_hazards R317, 42_blocking_ops R212: every blocking operation returns, provided the clock passes every bound, whatever
the transports do. Micro-steps are steps of their own (log 9), so a run must also give the block its turns: `LoopKeepsStepping`, which
93_implementation_defined U30 says of the loop (log 28). -/
def Obligations.BlockingReturns : Prop :=
  ∀ (r : Nat → State) (feed : Nat → List Line), IsRun r feed → MachineInv (r 0) → ClockAdvances r → LoopKeepsStepping r feed →
    ∀ n, ∃ m, n ≤ m ∧ (r m).blk = none

end
end

