-- ==== Sys2Proof/Laws/State.lean ====
section
/-! SUPPORT. One lemma per field per update of State: what a shared operation writes, and what it leaves. -/

namespace Sys2Proof.Laws

open Sys2Proof.Machine

@[simp] theorem updSensor_sensors (k : Nat) (f : Sensor → Sensor) (s : State) : (updSensor k f s).sensors = s.sensors.modify k f := rfl
@[simp] theorem updSensor_buses (k : Nat) (f : Sensor → Sensor) (s : State) : (updSensor k f s).buses = s.buses := rfl
@[simp] theorem updSensor_CLK (k : Nat) (f : Sensor → Sensor) (s : State) : (updSensor k f s).CLK = s.CLK := rfl
@[simp] theorem updSensor_fluidDensity (k : Nat) (f : Sensor → Sensor) (s : State) : (updSensor k f s).fluidDensity = s.fluidDensity := rfl
@[simp] theorem updSensor_diag (k : Nat) (f : Sensor → Sensor) (s : State) : (updSensor k f s).diag = s.diag := rfl
@[simp] theorem updSensor_FAULT (k : Nat) (f : Sensor → Sensor) (s : State) : (updSensor k f s).FAULT = s.FAULT := rfl
@[simp] theorem updSensor_blk (k : Nat) (f : Sensor → Sensor) (s : State) : (updSensor k f s).blk = s.blk := rfl
@[simp] theorem updSensor_script (k : Nat) (f : Sensor → Sensor) (s : State) : (updSensor k f s).script = s.script := rfl
@[simp] theorem updSensor_ret (k : Nat) (f : Sensor → Sensor) (s : State) : (updSensor k f s).ret = s.ret := rfl
@[simp] theorem updSensor_draws (k : Nat) (f : Sensor → Sensor) (s : State) : (updSensor k f s).draws = s.draws := rfl

@[simp] theorem setBus_sensors (b : Nat) (T : Transport) (s : State) : (setBus b T s).sensors = s.sensors := rfl
@[simp] theorem setBus_buses (b : Nat) (T : Transport) (s : State) : (setBus b T s).buses = s.buses.set b T := rfl
@[simp] theorem setBus_CLK (b : Nat) (T : Transport) (s : State) : (setBus b T s).CLK = s.CLK := rfl
@[simp] theorem setBus_fluidDensity (b : Nat) (T : Transport) (s : State) : (setBus b T s).fluidDensity = s.fluidDensity := rfl
@[simp] theorem setBus_diag (b : Nat) (T : Transport) (s : State) : (setBus b T s).diag = s.diag := rfl
@[simp] theorem setBus_FAULT (b : Nat) (T : Transport) (s : State) : (setBus b T s).FAULT = s.FAULT := rfl
@[simp] theorem setBus_blk (b : Nat) (T : Transport) (s : State) : (setBus b T s).blk = s.blk := rfl
@[simp] theorem setBus_script (b : Nat) (T : Transport) (s : State) : (setBus b T s).script = s.script := rfl
@[simp] theorem setBus_ret (b : Nat) (T : Transport) (s : State) : (setBus b T s).ret = s.ret := rfl
@[simp] theorem setBus_draws (b : Nat) (T : Transport) (s : State) : (setBus b T s).draws = s.draws := rfl

@[simp] theorem setRet_sensors (r : Result) (s : State) : (setRet r s).sensors = s.sensors := rfl
@[simp] theorem setRet_buses (r : Result) (s : State) : (setRet r s).buses = s.buses := rfl
@[simp] theorem setRet_CLK (r : Result) (s : State) : (setRet r s).CLK = s.CLK := rfl
@[simp] theorem setRet_fluidDensity (r : Result) (s : State) : (setRet r s).fluidDensity = s.fluidDensity := rfl
@[simp] theorem setRet_diag (r : Result) (s : State) : (setRet r s).diag = s.diag := rfl
@[simp] theorem setRet_FAULT (r : Result) (s : State) : (setRet r s).FAULT = s.FAULT := rfl
@[simp] theorem setRet_blk (r : Result) (s : State) : (setRet r s).blk = s.blk := rfl
@[simp] theorem setRet_script (r : Result) (s : State) : (setRet r s).script = s.script := rfl
@[simp] theorem setRet_ret (r : Result) (s : State) : (setRet r s).ret = r := rfl
@[simp] theorem setRet_draws (r : Result) (s : State) : (setRet r s).draws = s.draws := rfl

@[simp] theorem setBlk_sensors (B : Option Blocking) (s : State) : (setBlk B s).sensors = s.sensors := rfl
@[simp] theorem setBlk_buses (B : Option Blocking) (s : State) : (setBlk B s).buses = s.buses := rfl
@[simp] theorem setBlk_CLK (B : Option Blocking) (s : State) : (setBlk B s).CLK = s.CLK := rfl
@[simp] theorem setBlk_fluidDensity (B : Option Blocking) (s : State) : (setBlk B s).fluidDensity = s.fluidDensity := rfl
@[simp] theorem setBlk_diag (B : Option Blocking) (s : State) : (setBlk B s).diag = s.diag := rfl
@[simp] theorem setBlk_FAULT (B : Option Blocking) (s : State) : (setBlk B s).FAULT = s.FAULT := rfl
@[simp] theorem setBlk_blk (B : Option Blocking) (s : State) : (setBlk B s).blk = B := rfl
@[simp] theorem setBlk_script (B : Option Blocking) (s : State) : (setBlk B s).script = s.script := rfl
@[simp] theorem setBlk_ret (B : Option Blocking) (s : State) : (setBlk B s).ret = s.ret := rfl
@[simp] theorem setBlk_draws (B : Option Blocking) (s : State) : (setBlk B s).draws = s.draws := rfl

@[simp] theorem nextDraw_sensors (s : State) : (nextDraw s).sensors = s.sensors := rfl
@[simp] theorem nextDraw_buses (s : State) : (nextDraw s).buses = s.buses := rfl
@[simp] theorem nextDraw_CLK (s : State) : (nextDraw s).CLK = s.CLK := rfl
@[simp] theorem nextDraw_fluidDensity (s : State) : (nextDraw s).fluidDensity = s.fluidDensity := rfl
@[simp] theorem nextDraw_diag (s : State) : (nextDraw s).diag = s.diag := rfl
@[simp] theorem nextDraw_FAULT (s : State) : (nextDraw s).FAULT = s.FAULT := rfl
@[simp] theorem nextDraw_blk (s : State) : (nextDraw s).blk = s.blk := rfl
@[simp] theorem nextDraw_script (s : State) : (nextDraw s).script = s.script := rfl
@[simp] theorem nextDraw_ret (s : State) : (nextDraw s).ret = s.ret := rfl
@[simp] theorem nextDraw_draws (s : State) : (nextDraw s).draws = s.draws + 1 := rfl

@[simp] theorem emitDiag_sensors (e : DiagEvent) (s : State) : (emitDiag e s).sensors = s.sensors := rfl
@[simp] theorem emitDiag_buses (e : DiagEvent) (s : State) : (emitDiag e s).buses = s.buses := rfl
@[simp] theorem emitDiag_CLK (e : DiagEvent) (s : State) : (emitDiag e s).CLK = s.CLK := rfl
@[simp] theorem emitDiag_fluidDensity (e : DiagEvent) (s : State) : (emitDiag e s).fluidDensity = s.fluidDensity := rfl
@[simp] theorem emitDiag_diag (e : DiagEvent) (s : State) : (emitDiag e s).diag = s.diag ++ [e] := rfl
@[simp] theorem emitDiag_FAULT (e : DiagEvent) (s : State) : (emitDiag e s).FAULT = s.FAULT := rfl
@[simp] theorem emitDiag_blk (e : DiagEvent) (s : State) : (emitDiag e s).blk = s.blk := rfl
@[simp] theorem emitDiag_script (e : DiagEvent) (s : State) : (emitDiag e s).script = s.script := rfl
@[simp] theorem emitDiag_ret (e : DiagEvent) (s : State) : (emitDiag e s).ret = s.ret := rfl
@[simp] theorem emitDiag_draws (e : DiagEvent) (s : State) : (emitDiag e s).draws = s.draws := rfl

@[simp] theorem advanceClock_sensors (d : Nat) (s : State) : (advanceClock d s).sensors = s.sensors := rfl
@[simp] theorem advanceClock_buses (d : Nat) (s : State) : (advanceClock d s).buses = s.buses := rfl
@[simp] theorem advanceClock_CLK (d : Nat) (s : State) : (advanceClock d s).CLK = s.CLK + d := rfl
@[simp] theorem advanceClock_fluidDensity (d : Nat) (s : State) : (advanceClock d s).fluidDensity = s.fluidDensity := rfl
@[simp] theorem advanceClock_diag (d : Nat) (s : State) : (advanceClock d s).diag = s.diag := rfl
@[simp] theorem advanceClock_FAULT (d : Nat) (s : State) : (advanceClock d s).FAULT = s.FAULT := rfl
@[simp] theorem advanceClock_blk (d : Nat) (s : State) : (advanceClock d s).blk = s.blk := rfl
@[simp] theorem advanceClock_script (d : Nat) (s : State) : (advanceClock d s).script = s.script := rfl
@[simp] theorem advanceClock_ret (d : Nat) (s : State) : (advanceClock d s).ret = s.ret := rfl
@[simp] theorem advanceClock_draws (d : Nat) (s : State) : (advanceClock d s).draws = s.draws := rfl

@[simp] theorem setFluidDensity_sensors (v : F32) (s : State) : (setFluidDensity v s).sensors = s.sensors := rfl
@[simp] theorem setFluidDensity_buses (v : F32) (s : State) : (setFluidDensity v s).buses = s.buses := rfl
@[simp] theorem setFluidDensity_CLK (v : F32) (s : State) : (setFluidDensity v s).CLK = s.CLK := rfl
@[simp] theorem setFluidDensity_fluidDensity (v : F32) (s : State) : (setFluidDensity v s).fluidDensity = v := rfl
@[simp] theorem setFluidDensity_diag (v : F32) (s : State) : (setFluidDensity v s).diag = s.diag := rfl
@[simp] theorem setFluidDensity_FAULT (v : F32) (s : State) : (setFluidDensity v s).FAULT = s.FAULT := rfl
@[simp] theorem setFluidDensity_blk (v : F32) (s : State) : (setFluidDensity v s).blk = s.blk := rfl
@[simp] theorem setFluidDensity_script (v : F32) (s : State) : (setFluidDensity v s).script = s.script := rfl
@[simp] theorem setFluidDensity_ret (v : F32) (s : State) : (setFluidDensity v s).ret = s.ret := rfl
@[simp] theorem setFluidDensity_draws (v : F32) (s : State) : (setFluidDensity v s).draws = s.draws := rfl


/-- Instance `j` after an update of instance `k`. -/
theorem updSensor_lookup (k j : Nat) (f : Sensor → Sensor) (s : State) :
    (updSensor k f s).sensors[j]? = if k = j then (s.sensors[j]?).map f else s.sensors[j]? := by
  simp only [updSensor_sensors, List.getElem?_modify]
  split <;> simp

@[simp] theorem updSensor_same (k : Nat) (f : Sensor → Sensor) (s : State) :
    (updSensor k f s).sensors[k]? = (s.sensors[k]?).map f := by
  simp

theorem updSensor_other (k j : Nat) (f : Sensor → Sensor) (s : State) (h : j ≠ k) :
    (updSensor k f s).sensors[j]? = s.sensors[j]? := by
  rw [updSensor_lookup, if_neg (Ne.symm h)]

/-- Bus `c` after an update of bus `b`. -/
theorem setBus_lookup (b c : Nat) (T : Transport) (s : State) :
    (setBus b T s).buses[c]? = if b = c then (if b < s.buses.length then some T else none) else s.buses[c]? := by
  simp only [setBus_buses, List.getElem?_set]

theorem setBus_other (b c : Nat) (T : Transport) (s : State) (h : c ≠ b) :
    (setBus b T s).buses[c]? = s.buses[c]? := by
  rw [setBus_lookup, if_neg (Ne.symm h)]

theorem setBus_same (b : Nat) (T T' : Transport) (s : State) (h : s.buses[b]? = some T') :
    (setBus b T s).buses[b]? = some T := by
  have : b < s.buses.length := (List.getElem?_eq_some_iff.mp h).1
  rw [setBus_lookup, if_pos rfl, if_pos this]

/-- An update of an instance that is there, in the statements' words. -/
theorem updSensor_withSensor {k : Nat} {s : State} {S : Sensor} (f : Sensor → Sensor) (h : s.sensors[k]? = some S) :
    updSensor k f s = Safety.withSensor k (f S) s := by
  obtain ⟨hk, hS⟩ := List.getElem?_eq_some_iff.mp h
  have : s.sensors.modify k f = s.sensors.set k (f S) := by
    apply List.ext_getElem?
    intro j
    rw [List.getElem?_modify, List.getElem?_set]
    by_cases hj : k = j
    · subst hj; simp [hS, hk]
    · simp [hj]
  simp [updSensor, Safety.withSensor, this]

/-- The same of a transport. -/
theorem setBus_withBus (b : Nat) (T : Transport) (s : State) : setBus b T s = Safety.withBus b T s := rfl

/-- An instance put back unchanged. -/
theorem withSensor_same {k : Nat} {s : State} {S : Sensor} (h : s.sensors[k]? = some S) : Safety.withSensor k S s = s := by
  obtain ⟨hk, rfl⟩ := List.getElem?_eq_some_iff.mp h
  simp [Safety.withSensor]

/-- Two updates of one instance are one. -/
theorem updSensor_updSensor (k : Nat) (f g : Sensor → Sensor) (s : State) :
    updSensor k g (updSensor k f s) = updSensor k (fun S => g (f S)) s := by
  simp only [updSensor, List.modify_modify_eq]
  rfl

end Sys2Proof.Laws
end

