-- ==== Sys2Proof/Laws/Ops.lean ====
section
/-! SUPPORT. For each shared operation, once, everything it can do when it answers a next state. -/

namespace Sys2Proof.Laws

open Sys2Proof.Machine

@[simp] theorem andThen_of_next (s : State) (f : State → Host.Outcome State Fault Refusal) : andThen (.next s) f = f s := rfl

@[simp] theorem andThen_of_fault (r : Fault) (f : State → Host.Outcome State Fault Refusal) :
    andThen (.fault r) f = .fault r := rfl

@[simp] theorem andThen_of_refused (r : Refusal) (f : State → Host.Outcome State Fault Refusal) :
    andThen (.refused r) f = .refused r := rfl

theorem andThen_next {o : Host.Outcome State Fault Refusal} {f : State → Host.Outcome State Fault Refusal} {t : State}
    (h : andThen o f = .next t) : ∃ u, o = .next u ∧ f u = .next t := by
  cases o with
  | next u => exact ⟨u, rfl, h⟩
  | fault r => simp at h
  | refused r => simp at h

theorem onSensor_next {k : Nat} {adm : Profile → Bool} {s : State} {f : Sensor → Host.Outcome State Fault Refusal} {t : State}
    (h : onSensor k adm s f = .next t) : ∃ S, s.sensors[k]? = some S ∧ adm S.profile = true ∧ f S = .next t := by
  unfold onSensor at h
  split at h
  · cases h
  · next S hS =>
    split at h
    · next ha => exact ⟨S, hS, ha, h⟩
    · cases h

theorem onSensor_of {k : Nat} {adm : Profile → Bool} {s : State} {S : Sensor} (f : Sensor → Host.Outcome State Fault Refusal)
    (hS : s.sensors[k]? = some S) (ha : adm S.profile = true) : onSensor k adm s f = f S := by
  simp [onSensor, hS, ha]

theorem onSensor_notAdmitted {k : Nat} {adm : Profile → Bool} {s : State} {S : Sensor}
    (f : Sensor → Host.Outcome State Fault Refusal) (hS : s.sensors[k]? = some S) (ha : adm S.profile = false) :
    onSensor k adm s f = .refused .notAdmitted := by
  simp [onSensor, hS, ha]

theorem onBus_next {b : Nat} {s : State} {f : Transport → Host.Outcome State Fault Refusal} {t : State}
    (h : onBus b s f = .next t) : ∃ T, s.buses[b]? = some T ∧ f T = .next t := by
  unfold onBus at h
  split at h
  · cases h
  · next T hT => exact ⟨T, hT, h⟩

theorem onBus_of {b : Nat} {s : State} {T : Transport} (f : Transport → Host.Outcome State Fault Refusal)
    (hT : s.buses[b]? = some T) : onBus b s f = f T := by
  simp [onBus, hT]

/-- An issue that goes on met a free bus, and this is what it leaves. -/
theorem issue_next {b : Nat} {tr : Transaction} {s t : State} (h : issue b tr s = .next t) :
    ∃ T, s.buses[b]? = some T ∧ T.inflight = none ∧ t = nextDraw (setBus b (issued s.draws tr) s) := by
  obtain ⟨T, hT, h⟩ := onBus_next h
  split at h
  · cases h
  · next hb =>
    refine ⟨T, hT, ?_, ?_⟩
    · simpa [Config.busyIssuePolicy] using hb
    · cases h; rfl

theorem issue_free {b : Nat} (tr : Transaction) {s : State} {T : Transport} (hT : s.buses[b]? = some T)
    (hf : T.inflight = none) : issue b tr s = .next (nextDraw (setBus b (issued s.draws tr) s)) := by
  simp [issue, onBus, hT, hf]

theorem issue_busy {b : Nat} (tr : Transaction) {s : State} {T : Transport} (hT : s.buses[b]? = some T)
    (hf : T.inflight ≠ none) : issue b tr s = .fault .busyIssue := by
  have hi : T.inflight.isSome = true := by
    cases h : T.inflight with
    | none => exact absurd h hf
    | some _ => rfl
  simp [issue, onBus, hT, hi, Config.busyIssuePolicy]

/-- A bus command row that goes on. -/
theorem issueFrame_next {b : Nat} {f : Frame} {s t : State} (h : issueFrame b f s = .next t) :
    ∃ T, s.buses[b]? = some T ∧ T.inflight = none ∧
      t = setRet .none (nextDraw (setBus b (issued s.draws (.write f.addr [f.cmd] f.stop)) s)) := by
  obtain ⟨u, hu, h⟩ := andThen_next h
  obtain ⟨T, hT, hf, rfl⟩ := issue_next hu
  cases h
  exact ⟨T, hT, hf, rfl⟩

theorem issueFrame_free {b : Nat} (f : Frame) {s : State} {T : Transport} (hT : s.buses[b]? = some T)
    (hf : T.inflight = none) :
    issueFrame b f s = .next (setRet .none (nextDraw (setBus b (issued s.draws (.write f.addr [f.cmd] f.stop)) s))) := by
  simp [issueFrame, issue_free _ hT hf]

/-- An issue of a blocking operation that goes on. -/
theorem issueAndWait_next {B : Blocking} {ph : Phase} {o : Host.Outcome State Fault Refusal} {t : State}
    (h : issueAndWait B ph o = .next t) : ∃ u, o = .next u ∧ t = atPhase B ph (stampOp B.sensor u) := by
  obtain ⟨u, hu, h⟩ := andThen_next h
  cases h
  exact ⟨u, hu, rfl⟩

/-- What the transport's completion step can do. -/
theorem complete_next {b : Nat} {c : Completion} {s t : State} (h : complete b c s = .next t) :
    ∃ T tr, s.buses[b]? = some T ∧ T.inflight = some tr ∧
      ((∃ addr bytes stop n, tr = .write addr bytes stop ∧ c = .okWrite n ∧ n ≤ bytes.length ∧
          t = setBus b (completed false T.errcode n) s) ∨
       (∃ addr dest n stop data, tr = .read addr dest n stop ∧ c = .okRead data ∧ data.length ≤ n ∧ n ≤ Config.bufSize ∧
          t = updSensor dest (fun S => { S with buf := receive n data S.buf })
                (setBus b (completed false T.errcode data.length) s)) ∨
       (∃ addr bytes stop code n, tr = .write addr bytes stop ∧ c = .err code n ∧ n ≤ bytes.length ∧
          t = setBus b (completed true code n) s) ∨
       (∃ addr dest len stop code n, tr = .read addr dest len stop ∧ c = .err code n ∧ n ≤ len ∧
          t = updSensor dest (fun S => { S with buf := Memory.eraseFrom S.buf 0 Config.bufSize })
                (setBus b (completed true code n) s))) := by
  obtain ⟨T, hT, h⟩ := onBus_next h
  cases hi : T.inflight with
  | none => rw [hi] at h; cases h
  | some tr =>
    rw [hi] at h
    refine ⟨T, tr, hT, hi, ?_⟩
    cases c with
    | okWrite n =>
      cases tr with
      | write addr bytes stop =>
        simp only [completeWrite] at h
        split at h
        · next hn => cases h; exact .inl ⟨addr, bytes, stop, n, rfl, rfl, hn, rfl⟩
        · cases h
      | read _ _ _ _ => cases h
    | okRead data =>
      cases tr with
      | write _ _ _ => cases h
      | read addr dest n stop =>
        simp only [completeRead] at h
        split at h
        · cases h
        · next h1 =>
          split at h
          · cases h
          · next h2 =>
            cases h
            exact .inr (.inl ⟨addr, dest, n, stop, data, rfl, rfl, Nat.le_of_not_lt h1, Nat.le_of_not_lt h2, rfl⟩)
    | err code n =>
      cases tr with
      | write addr bytes stop =>
        simp only [completeErr] at h
        split at h
        · next hn => cases h; exact .inr (.inr (.inl ⟨addr, bytes, stop, code, n, rfl, rfl, hn, rfl⟩))
        · cases h
      | read addr dest len stop =>
        simp only [completeErr] at h
        split at h
        · next hn => cases h; exact .inr (.inr (.inr ⟨addr, dest, len, stop, code, n, rfl, rfl, hn, rfl⟩))
        · cases h

end Sys2Proof.Laws
end

