-- ==== Sys2Proof/Laws/Blocking.lean ====
section
/-! SUPPORT. The blocking operations: what one micro-step can do, and how INIT, IS_INIT and READ_BLOCKING begin. -/

namespace Sys2Proof.Laws

open Sys2Proof.Machine

/-- `Delay(S, T_INIT_GAP)` with the gap the spec takes, 0, returns at once (42_blocking_ops R214). -/
theorem beginGap_eq (B : Blocking) (loop after : Phase) (s : State) :
    beginGap B loop after s = atPhase B after (stampConv B.sensor s) := by
  simp [beginGap, Config.tInitGap]

theorem gapLoop_eq (B : Blocking) (S : Sensor) (after : Phase) (s : State) : gapLoop B S after s = atPhase B after s := by
  simp [gapLoop, Config.tInitGap]

/-- Everything one micro-step that goes on can do (42_blocking_ops R210 to R229). -/
theorem microStep_next {B : Blocking} {s t : State} (h : microStep B s = .next t) :
    ∃ S T, s.sensors[B.sensor]? = some S ∧ s.buses[S.bus]? = some T ∧
      (t = s ∨
       (B.phase = .resetWait ∧ pollOf s S T ≠ .Pending ∧
          t = atPhase B (.cmdIssue 0) (stampConv B.sensor (waitDiag (pollOf s S T) T s))) ∨
       (B.phase = .resetGap ∧ t = atPhase B (.cmdIssue 0) s) ∨
       (∃ w, B.phase = .cmdIssue w ∧ T.inflight = none ∧
          t = atPhase B (.cmdWait w) (stampOp B.sensor (nextDraw (setBus S.bus
            (issued s.draws (.write S.profile.addr [wordCommand S.profile w] Config.stop)) s)))) ∨
       (∃ w, B.phase = .cmdWait w ∧ pollOf s S T ≠ .Pending ∧
          t = atPhase B (.dataIssue w) (stampConv B.sensor (waitDiag (pollOf s S T) T s))) ∨
       (∃ w, B.phase = .cmdGap w ∧ t = atPhase B (.dataIssue w) s) ∨
       (∃ w, B.phase = .dataIssue w ∧ T.inflight = none ∧
          t = atPhase B (.dataWait w) (stampOp B.sensor (nextDraw (setBus S.bus
            (issued s.draws (.read S.profile.addr B.sensor (wordLength S.profile) Config.stop)) s)))) ∨
       (∃ w, B.phase = .dataWait w ∧ pollOf s S T ≠ .Pending ∧ t = wordEnd B S T w (pollOf s S T) s) ∨
       (B.phase = .measureWait ∧ pollOf s S T = .Done ∧ t = atPhase B .measureDelay (stampConv B.sensor s)) ∨
       ((B.phase = .measureWait ∨ B.phase = .measureData) ∧ (pollOf s S T = .Failed ∨ pollOf s S T = .TimedOut) ∧
          t = finish (.tick .Failure) (waitDiag (pollOf s S T) T s)) ∨
       (B.phase = .measureDelay ∧ S.profile.tConvMin ≤ elapsed s S.tConv ∧ T.inflight = none ∧
          t = atPhase B .measureData (stampOp B.sensor (nextDraw (setBus S.bus
            (issued s.draws (.read S.profile.addr B.sensor 5 Config.stop)) s)))) ∨
       (B.phase = .measureData ∧ pollOf s S T = .Done ∧
          t = finish (.tick .Success) (nextDraw (updSensor B.sensor (measureStore s.draws) s)))) := by
  obtain ⟨S, hS, -, h⟩ := onSensor_next h
  obtain ⟨T, hT, h⟩ := onBus_next h
  refine ⟨S, T, hS, hT, ?_⟩
  have issuing : ∀ {ph : Phase} {tr : Transaction} {t' : State}, issueAndWait B ph (issue S.bus tr s) = .next t' →
      T.inflight = none ∧ t' = atPhase B ph (stampOp B.sensor (nextDraw (setBus S.bus (issued s.draws tr) s))) := by
    intro ph tr t' hi
    obtain ⟨u, hu, rfl⟩ := issueAndWait_next hi
    obtain ⟨T', hT', hf, rfl⟩ := issue_next hu
    rw [hT] at hT'
    cases hT'
    exact ⟨hf, rfl⟩
  cases hB : B.phase with
  | resetWait =>
    simp only [hB, beginGap_eq] at h
    cases hq : pollOf s S T <;> rw [hq] at h <;> cases h
    case Pending.refl => exact .inl rfl
    all_goals exact .inr (.inl ⟨rfl, by simp, rfl⟩)
  | resetGap =>
    simp only [hB, gapLoop_eq] at h
    cases h
    exact .inr (.inr (.inl ⟨rfl, rfl⟩))
  | cmdIssue w =>
    simp only [hB] at h
    obtain ⟨hf, rfl⟩ := issuing h
    exact .inr (.inr (.inr (.inl ⟨w, rfl, hf, rfl⟩)))
  | cmdWait w =>
    simp only [hB, beginGap_eq] at h
    cases hq : pollOf s S T <;> rw [hq] at h <;> cases h
    case Pending.refl => exact .inl rfl
    all_goals exact .inr (.inr (.inr (.inr (.inl ⟨w, rfl, by simp, rfl⟩))))
  | cmdGap w =>
    simp only [hB, gapLoop_eq] at h
    cases h
    exact .inr (.inr (.inr (.inr (.inr (.inl ⟨w, rfl, rfl⟩)))))
  | dataIssue w =>
    simp only [hB] at h
    obtain ⟨hf, rfl⟩ := issuing h
    exact .inr (.inr (.inr (.inr (.inr (.inr (.inl ⟨w, rfl, hf, rfl⟩))))))
  | dataWait w =>
    simp only [hB] at h
    cases hq : pollOf s S T <;> rw [hq] at h <;> cases h
    case Pending.refl => exact .inl rfl
    all_goals exact .inr (.inr (.inr (.inr (.inr (.inr (.inr (.inl ⟨w, rfl, by simp, rfl⟩)))))))
  | measureWait =>
    simp only [hB] at h
    cases hq : pollOf s S T <;> rw [hq] at h <;> cases h
    case Pending.refl => exact .inl rfl
    case Done.refl => exact .inr (.inr (.inr (.inr (.inr (.inr (.inr (.inr (.inl ⟨rfl, rfl, rfl⟩))))))))
    all_goals exact .inr (.inr (.inr (.inr (.inr (.inr (.inr (.inr (.inr (.inl ⟨.inl rfl, by simp, rfl⟩)))))))))
  | measureDelay =>
    simp only [hB] at h
    split at h
    · next hd =>
      obtain ⟨hf, rfl⟩ := issuing h
      exact .inr (.inr (.inr (.inr (.inr (.inr (.inr (.inr (.inr (.inr (.inl ⟨rfl, hd, hf, rfl⟩))))))))))
    · cases h; exact .inl rfl
  | measureData =>
    simp only [hB] at h
    cases hq : pollOf s S T <;> rw [hq] at h <;> cases h
    case Pending.refl => exact .inl rfl
    case Done.refl => exact .inr (.inr (.inr (.inr (.inr (.inr (.inr (.inr (.inr (.inr (.inr ⟨rfl, rfl, rfl⟩))))))))))
    all_goals exact .inr (.inr (.inr (.inr (.inr (.inr (.inr (.inr (.inr (.inl ⟨.inr rfl, by simp, rfl⟩)))))))))

/-- How INIT begins when it goes on. -/
theorem execInit_next {k : Nat} {s t : State} (h : execInit k s = .next t) :
    ∃ S T, s.sensors[k]? = some S ∧ S.initOk = false ∧ s.buses[S.bus]? = some T ∧ T.inflight = none ∧
      ((S.profile = .TEMP ∧
          t = setBlk (some ⟨k, .resetWait, 0⟩) (stampOp k (nextDraw (setBus S.bus
            (issued s.draws (.write 0x77 [0x1E] Config.stop)) (setRet .none s))))) ∨
       (S.profile = .PRES ∧
          t = setBlk (some ⟨k, .cmdWait 0, 0⟩) (stampOp k (nextDraw (setBus S.bus
            (issued s.draws (.write 0x40 [0x00] Config.stop)) (setRet .none s)))))) := by
  obtain ⟨S, hS, -, h⟩ := onSensor_next h
  split at h
  · cases h
  · next ho =>
    have ho : S.initOk = false := by simpa using ho
    cases hp : S.profile with
    | TEMP =>
      simp only [initFirst, hp] at h
      obtain ⟨u, hu, rfl⟩ := issueAndWait_next h
      obtain ⟨T, hT, hf, rfl⟩ := issue_next hu
      exact ⟨S, T, hS, ho, hT, hf, .inl ⟨hp, by rw [hp]; rfl⟩⟩
    | PRES =>
      simp only [initFirst, hp] at h
      obtain ⟨u, hu, rfl⟩ := issueAndWait_next h
      obtain ⟨T, hT, hf, rfl⟩ := issue_next hu
      exact ⟨S, T, hS, ho, hT, hf, .inr ⟨hp, by rw [hp]; rfl⟩⟩

/-- How READ_BLOCKING begins when it goes on. -/
theorem execReadBlocking_next {k : Nat} {s t : State} (h : execReadBlocking k s = .next t) :
    ∃ S T, s.sensors[k]? = some S ∧ S.profile = .PRES ∧ s.buses[S.bus]? = some T ∧ T.inflight = none ∧
      t = setBlk (some ⟨k, .measureWait, 0⟩) (stampOp k (nextDraw (setBus S.bus
        (issued s.draws (.write 0x40 [0xAC] Config.stop)) (setRet .none s)))) := by
  obtain ⟨S, hS, ha, h⟩ := onSensor_next h
  have hp : S.profile = .PRES := by
    cases hq : S.profile with
    | PRES => rfl
    | TEMP => rw [hq] at ha; cases ha
  obtain ⟨u, hu, rfl⟩ := issueAndWait_next h
  obtain ⟨T, hT, hf, rfl⟩ := issue_next hu
  exact ⟨S, T, hS, hp, hT, hf, by rw [hp]; rfl⟩

end Sys2Proof.Laws
end

