-- ==== Sys2Proof/Laws/Memory.lean ====
section
/-! SUPPORT. The laws of a raw sample buffer: every operation keeps the canonical form; a read after a write. -/

namespace Sys2Proof.Laws

open Sys2Proof.Machine

theorem risingFrom_mono {low low' : Nat} (m : Memory) (h : low' ≤ low) (hm : Memory.risingFrom low m = true) :
    Memory.risingFrom low' m = true := by
  cases m with
  | nil => rfl
  | cons c m =>
    obtain ⟨a, v⟩ := c
    simp only [Memory.risingFrom, Bool.and_eq_true, decide_eq_true_eq] at hm ⊢
    exact ⟨⟨by omega, hm.1.2⟩, hm.2⟩

/-- A cell below every listed one holds no value. -/
theorem read_below {low : Nat} (m : Memory) (a : Nat) (hm : Memory.risingFrom low m = true) (ha : a < low) :
    Memory.read m a = none := by
  induction m generalizing low with
  | nil => rfl
  | cons c m ih =>
    obtain ⟨a', v⟩ := c
    simp only [Memory.risingFrom, Bool.and_eq_true, decide_eq_true_eq] at hm
    rw [Memory.read, if_neg (by omega)]
    exact ih hm.2 (by omega)

theorem write_rising {low : Nat} (m : Memory) (a : Nat) (v : Byte) (hm : Memory.risingFrom low m = true) (hl : low ≤ a)
    (ha : a < Config.bufSize) : Memory.risingFrom low (Memory.write m a v) = true := by
  induction m generalizing low with
  | nil => simp [Memory.write, Memory.risingFrom, hl, ha]
  | cons c m ih =>
    obtain ⟨a', v'⟩ := c
    simp only [Memory.risingFrom, Bool.and_eq_true, decide_eq_true_eq] at hm
    simp only [Memory.write]
    split
    · next h => simp [Memory.risingFrom, hl, ha, hm.1.2, hm.2, Nat.succ_le_of_lt h]
    · split
      · next h => subst h; simp [Memory.risingFrom, hl, ha, hm.2]
      · next h1 h2 => simp [Memory.risingFrom, hm.1.1, hm.1.2, ih hm.2 (by omega)]

theorem erase_rising {low : Nat} (m : Memory) (a : Nat) (hm : Memory.risingFrom low m = true) :
    Memory.risingFrom low (Memory.erase m a) = true := by
  induction m generalizing low with
  | nil => rfl
  | cons c m ih =>
    obtain ⟨a', v'⟩ := c
    simp only [Memory.risingFrom, Bool.and_eq_true, decide_eq_true_eq] at hm
    simp only [Memory.erase]
    split
    · exact risingFrom_mono m (by omega) hm.2
    · simp [Memory.risingFrom, hm.1.1, hm.1.2, ih hm.2]

/-- A write keeps the canonical form. -/
theorem write_wf (m : Memory) (a : Nat) (v : Byte) (hm : Memory.wf m = true) (ha : a < Config.bufSize) :
    Memory.wf (Memory.write m a v) = true :=
  write_rising m a v hm (Nat.zero_le a) ha

/-- An erasure keeps the canonical form. -/
theorem erase_wf (m : Memory) (a : Nat) (hm : Memory.wf m = true) : Memory.wf (Memory.erase m a) = true :=
  erase_rising m a hm

theorem writeFrom_wf (m : Memory) (a : Nat) (data : List Byte) (hm : Memory.wf m = true)
    (ha : a + data.length ≤ Config.bufSize) : Memory.wf (Memory.writeFrom m a data) = true := by
  induction data generalizing m a with
  | nil => exact hm
  | cons v data ih =>
    simp only [List.length_cons] at ha
    exact ih _ _ (write_wf m a v hm (by omega)) (by omega)

theorem eraseFrom_wf (m : Memory) (a n : Nat) (hm : Memory.wf m = true) : Memory.wf (Memory.eraseFrom m a n) = true := by
  induction n generalizing m a with
  | zero => exact hm
  | succ n ih => exact ih _ _ (erase_wf m a hm)

/-- A completed read keeps the canonical form of the buffer it fills. -/
theorem receive_wf (n : Nat) (data : List Byte) (m : Memory) (hm : Memory.wf m = true)
    (hd : data.length ≤ Config.bufSize) : Memory.wf (receive n data m) = true :=
  writeFrom_wf _ 0 data (eraseFrom_wf m _ _ hm) (by omega)

/-- The buffer of a new instance is in canonical form. -/
theorem construct_wf (p : Profile) (b : Nat) : Memory.wf (Sensor.construct p b).buf = true := rfl

/-- A read after a write. -/
theorem read_write {low : Nat} (m : Memory) (a b : Nat) (v : Byte) (hm : Memory.risingFrom low m = true) :
    Memory.read (Memory.write m a v) b = if a = b then some v else Memory.read m b := by
  induction m generalizing low with
  | nil => simp [Memory.write, Memory.read]
  | cons c m ih =>
    obtain ⟨a', v'⟩ := c
    simp only [Memory.risingFrom, Bool.and_eq_true, decide_eq_true_eq] at hm
    simp only [Memory.write]
    split
    · simp [Memory.read]
    · split
      · next h => subst h; simp only [Memory.read]; split <;> simp
      · next h1 h2 =>
        rw [Memory.read, Memory.read, ih hm.2]
        by_cases hb : a' = b
        · simp only [if_pos hb]; rw [if_neg (by omega)]
        · simp only [if_neg hb]

/-- A read after an erasure. -/
theorem read_erase {low : Nat} (m : Memory) (a b : Nat) (hm : Memory.risingFrom low m = true) :
    Memory.read (Memory.erase m a) b = if a = b then none else Memory.read m b := by
  induction m generalizing low with
  | nil => simp [Memory.erase, Memory.read, Memory.unlisted]
  | cons c m ih =>
    obtain ⟨a', v'⟩ := c
    simp only [Memory.risingFrom, Bool.and_eq_true, decide_eq_true_eq] at hm
    simp only [Memory.erase]
    split
    · next h =>
      subst h
      by_cases hb : a' = b
      · subst hb; rw [if_pos rfl]; exact read_below m a' hm.2 (Nat.lt_succ_self a')
      · rw [if_neg hb, Memory.read, if_neg hb]
    · next h =>
      rw [Memory.read, Memory.read, ih hm.2]
      by_cases hb : a' = b
      · simp only [if_pos hb]; rw [if_neg (by omega)]
      · simp only [if_neg hb]

end Sys2Proof.Laws
end

