-- ==== Sys2Proof/Laws/PerInstr.lean ====
section
/-! SUPPORT. A statement of every instruction as syntax: the shape of its encoding. -/

namespace Sys2Proof.Laws.EncodedShape

/-- A host or codec operation is one opcode byte and the operand bytes of its format (30_encoding R101); a bus command is one frame
to one of the two devices (20_memory R61). -/
def Statement (i : Instr) : Prop :=
  match encode i with
  | .bytes _ [] => False
  | .bytes _ (op :: operands) => operands.length = operandBytes op
  | .frame _ f => f.addr = 0x77 ∨ f.addr = 0x40

theorem advance (k : Nat) : Statement (.advance k) := rfl

theorem tick (k : Nat) : Statement (.tick k) := rfl

theorem query (k : Nat) : Statement (.query k) := rfl

theorem reset (k : Nat) : Statement (.reset k) := rfl

theorem getValue (k : Nat) : Statement (.getValue k) := rfl

theorem init (k : Nat) : Statement (.init k) := rfl

theorem isInit (k : Nat) : Statement (.isInit k) := rfl

theorem readBlocking (k : Nat) : Statement (.readBlocking k) := rfl

theorem decode16 (hi : Byte) (lo : Byte) : Statement (.decode16 hi lo) := rfl

theorem decode24 (b0 : Byte) (b1 : Byte) (b2 : Byte) : Statement (.decode24 b0 b1 b2) := rfl

theorem decode32 (hi16 : U16) (lo16 : U16) : Statement (.decode32 hi16 lo16) := rfl

theorem split32 (u : U32) : Statement (.split32 u) := rfl

theorem bitcastF32 (u : U32) : Statement (.bitcastF32 u) := rfl

theorem bitcastU32 (f : F32) : Statement (.bitcastU32 f) := rfl

theorem fieldEquip (w0 : U16) : Statement (.fieldEquip w0) := rfl

theorem fieldPlace (w0 : U16) : Statement (.fieldPlace w0) := rfl

theorem fieldFile (w1 : U16) : Statement (.fieldFile w1) := rfl

theorem fieldCode (w0 : U16) (w1 : U16) : Statement (.fieldCode w0 w1) := rfl

theorem fieldMode (s0 : U16) : Statement (.fieldMode s0) := rfl

theorem fieldDate (s0 : U16) : Statement (.fieldDate s0) := rfl

theorem tReset (b : Nat) (stop : Bool) : Statement (.tReset b stop) := .inl rfl

theorem tConvert (b : Nat) (stop : Bool) : Statement (.tConvert b stop) := .inl rfl

theorem tAdcRead (b : Nat) (stop : Bool) : Statement (.tAdcRead b stop) := .inl rfl

theorem tPromRead (b : Nat) (i : Nat) (stop : Bool) : Statement (.tPromRead b i stop) := .inl rfl

theorem pMeasure (b : Nat) (stop : Bool) : Statement (.pMeasure b stop) := .inr rfl

theorem pMemCust0 (b : Nat) (stop : Bool) : Statement (.pMemCust0 b stop) := .inr rfl

theorem pMemCust1 (b : Nat) (stop : Bool) : Statement (.pMemCust1 b stop) := .inr rfl

theorem pMemScaling0 (b : Nat) (stop : Bool) : Statement (.pMemScaling0 b stop) := .inr rfl

theorem pMemPminHi (b : Nat) (stop : Bool) : Statement (.pMemPminHi b stop) := .inr rfl

theorem pMemPminLo (b : Nat) (stop : Bool) : Statement (.pMemPminLo b stop) := .inr rfl

theorem pMemPmaxHi (b : Nat) (stop : Bool) : Statement (.pMemPmaxHi b stop) := .inr rfl

theorem pMemPmaxLo (b : Nat) (stop : Bool) : Statement (.pMemPmaxLo b stop) := .inr rfl

end Sys2Proof.Laws.EncodedShape
end

