-- ==== Sys2Proof/Laws/Sequencer.lean ====
section
/-! SUPPORT. ADVANCE and TICK: what one tick can do, said once. -/

namespace Sys2Proof.Laws

open Sys2Proof.Machine

@[simp] theorem elapsed_some (s : State) (t : Nat) : elapsed s (some t) = s.CLK - t := rfl

@[simp] theorem pollTransition_Done (w : ReadState) (d : ReadState × List Effect) : pollTransition .Done w d = d := rfl

@[simp] theorem pollTransition_Pending (w : ReadState) (d : ReadState × List Effect) :
    pollTransition .Pending w d = (w, []) := rfl

@[simp] theorem pollTransition_Failed (w : ReadState) (d : ReadState × List Effect) :
    pollTransition .Failed w d = (.Error, [.diag .BusError]) := rfl

@[simp] theorem pollTransition_TimedOut (w : ReadState) (d : ReadState × List Effect) :
    pollTransition .TimedOut w d = (.Error, [.diag .BusTimeout]) := rfl

@[simp] theorem performAll_nil (k : Nat) (S : Sensor) (s : State) : performAll k S [] s = .next s := rfl

@[simp] theorem performAll_cons (k : Nat) (S : Sensor) (e : Effect) (es : List Effect) (s : State) :
    performAll k S (e :: es) s = andThen (perform k S e s) fun s' => performAll k S es s' := rfl

/-- A tick of an admitted instance on an existing bus. -/
theorem advanceWith_of {k : Nat} {s : State} {S : Sensor} {T : Transport} (report : ReadState → Result)
    (hS : s.sensors[k]? = some S) (hp : S.profile = .TEMP) (hT : s.buses[S.bus]? = some T) :
    advanceWith report k s =
      andThen (performAll k S (sampled s S T).2 s) fun s' =>
        .next (setRet (report (sampled s S T).1) (setPc k (sampled s S T).1 s')) := by
  rw [advanceWith, onSensor_of _ hS (by rw [hp]; rfl), onBus_of _ hT]

theorem sampled_idle {s : State} {S : Sensor} (T : Transport) (h : S.rs = .Idle) (hp : S.profile = .TEMP) :
    sampled s S T = (.StartConversion, [.issueWrite 0x48, .resetOpTimer]) := by
  simp [sampled, transition, h, hp, Profile.cmdConvert]

theorem sampled_startConversion {s : State} {S : Sensor} (T : Transport) (h : S.rs = .StartConversion) :
    sampled s S T = pollTransition (pollOf s S T) .StartConversion (.WaitConversion, [.resetConvTimer]) := by
  simp [sampled, transition, h, pollOf]

theorem sampled_waitConversion {s : State} {S : Sensor} (T : Transport) (h : S.rs = .WaitConversion) (hp : S.profile = .TEMP) :
    sampled s S T =
      if 10 ≤ elapsed s S.tConv then (.RequestData, [.issueWrite 0x00, .resetOpTimer]) else (.WaitConversion, []) := by
  simp [sampled, transition, h, hp, Profile.tConvMin, Config.cmdAdcRead]

theorem sampled_requestData {s : State} {S : Sensor} (T : Transport) (h : S.rs = .RequestData) :
    sampled s S T = pollTransition (pollOf s S T) .RequestData (.WaitData, [.issueRead 3, .resetOpTimer]) := by
  simp [sampled, transition, h, pollOf, Config.nAdc]

theorem sampled_waitData {s : State} {S : Sensor} (T : Transport) (h : S.rs = .WaitData) :
    sampled s S T = pollTransition (pollOf s S T) .WaitData (.Complete, [.decodeAndStore]) := by
  simp [sampled, transition, h, pollOf]

theorem sampled_complete {s : State} {S : Sensor} (T : Transport) (h : S.rs = .Complete) :
    sampled s S T = (.Complete, []) := by
  simp [sampled, transition, h]

theorem sampled_error {s : State} {S : Sensor} (T : Transport) (h : S.rs = .Error) :
    sampled s S T = (.Error, []) := by
  simp [sampled, transition, h]

/-- The diagnostic of the error a poll reports. -/
def pollDiag (r : PollResult) (T : Transport) : DiagEvent :=
  match r with
  | .TimedOut => .timeoutSeen
  | .Failed | .Done | .Pending => .busErrorSeen T.errcode

/-- A write effect that goes on. -/
theorem perform_issueWrite_next {k : Nat} {S : Sensor} {cmd : Byte} {s u : State} {T : Transport} (hp : S.profile = .TEMP)
    (hT : s.buses[S.bus]? = some T) (h : performAll k S [.issueWrite cmd, .resetOpTimer] s = .next u) :
    T.inflight = none ∧
      u = stampOp k (nextDraw (setBus S.bus (issued s.draws (.write 0x77 [cmd] Config.stop)) s)) := by
  obtain ⟨v, hv, h⟩ := andThen_next h
  obtain ⟨T', hT', hf, rfl⟩ := issue_next hv
  rw [hT] at hT'
  cases hT'
  rw [hp] at h
  cases h
  exact ⟨hf, rfl⟩

/-- The read effect that goes on. -/
theorem perform_issueRead_next {k : Nat} {S : Sensor} {n : Nat} {s u : State} {T : Transport} (hp : S.profile = .TEMP)
    (hT : s.buses[S.bus]? = some T) (h : performAll k S [.issueRead n, .resetOpTimer] s = .next u) :
    T.inflight = none ∧
      u = stampOp k (nextDraw (setBus S.bus (issued s.draws (.read 0x77 k n Config.stop)) s)) := by
  obtain ⟨v, hv, h⟩ := andThen_next h
  obtain ⟨T', hT', hf, rfl⟩ := issue_next hv
  rw [hT] at hT'
  cases hT'
  rw [hp] at h
  cases h
  exact ⟨hf, rfl⟩

/-- The diagnostic effect of a bus failure takes the exception. -/
theorem perform_diag {k : Nat} {S : Sensor} {s : State} {T : Transport} (hT : s.buses[S.bus]? = some T) :
    performAll k S [.diag .BusError] s = .next (raiseError k (.busErrorSeen T.errcode) s) ∧
    performAll k S [.diag .BusTimeout] s = .next (raiseError k .timeoutSeen s) := by
  simp [perform, onBus, hT, diagOf]

/-- Everything one tick that goes on can do (41_sequencer R173): `next` is the state it reports, `u` the state before the result is
set. The cases are: nothing; the first command write; the conversion timer; the second command write; the read; the completion;
the error. -/
theorem advanceWith_next {report : ReadState → Result} {k : Nat} {s t : State} (h : advanceWith report k s = .next t) :
    ∃ S T next u, s.sensors[k]? = some S ∧ S.profile = .TEMP ∧ s.buses[S.bus]? = some T ∧
      t = setRet (report next) (setPc k next u) ∧
      ((next = S.rs ∧ S.rs ≠ .Idle ∧ u = s) ∨
       (S.rs = .Idle ∧ next = .StartConversion ∧ T.inflight = none ∧
          u = stampOp k (nextDraw (setBus S.bus (issued s.draws (.write 0x77 [0x48] Config.stop)) s))) ∨
       (S.rs = .StartConversion ∧ pollOf s S T = .Done ∧ next = .WaitConversion ∧ u = stampConv k s) ∨
       (S.rs = .WaitConversion ∧ 10 ≤ elapsed s S.tConv ∧ next = .RequestData ∧ T.inflight = none ∧
          u = stampOp k (nextDraw (setBus S.bus (issued s.draws (.write 0x77 [0x00] Config.stop)) s))) ∨
       (S.rs = .RequestData ∧ pollOf s S T = .Done ∧ next = .WaitData ∧ T.inflight = none ∧
          u = stampOp k (nextDraw (setBus S.bus (issued s.draws (.read 0x77 k 3 Config.stop)) s))) ∨
       (S.rs = .WaitData ∧ pollOf s S T = .Done ∧ next = .Complete ∧
          u = nextDraw (updSensor k (decodeStore s.draws) s)) ∨
       ((S.rs = .StartConversion ∨ S.rs = .RequestData ∨ S.rs = .WaitData) ∧
          (pollOf s S T = .Failed ∨ pollOf s S T = .TimedOut) ∧ next = .Error ∧
          u = raiseError k (pollDiag (pollOf s S T) T) s)) := by
  obtain ⟨S, hS, ha, h⟩ := onSensor_next h
  obtain ⟨T, hT, h⟩ := onBus_next h
  obtain ⟨u, hu, h⟩ := andThen_next h
  have hp : S.profile = .TEMP := by
    cases hq : S.profile with
    | TEMP => rfl
    | PRES => rw [hq] at ha; cases ha
  cases h
  refine ⟨S, T, (sampled s S T).1, u, hS, hp, hT, rfl, ?_⟩
  -- what a polling state does, given what a clean finish leads to
  have polled : ∀ d : ReadState × List Effect, sampled s S T = pollTransition (pollOf s S T) S.rs d →
      (pollOf s S T = .Done ∧ (sampled s S T).1 = d.1 ∧ performAll k S d.2 s = .next u) ∨
      ((sampled s S T).1 = S.rs ∧ u = s) ∨
      ((pollOf s S T = .Failed ∨ pollOf s S T = .TimedOut) ∧ (sampled s S T).1 = .Error ∧
        u = raiseError k (pollDiag (pollOf s S T) T) s) := by
    intro d hd
    rw [hd] at hu ⊢
    cases hq : pollOf s S T with
    | Done => rw [hq] at hu; exact .inl ⟨rfl, rfl, hu⟩
    | Pending => rw [hq] at hu; cases hu; exact .inr (.inl ⟨rfl, rfl⟩)
    | Failed =>
      rw [hq, pollTransition_Failed, (perform_diag hT).1] at hu
      cases hu
      exact .inr (.inr ⟨.inl rfl, rfl, rfl⟩)
    | TimedOut =>
      rw [hq, pollTransition_TimedOut, (perform_diag hT).2] at hu
      cases hu
      exact .inr (.inr ⟨.inr rfl, rfl, rfl⟩)
  cases hrs : S.rs with
  | Idle =>
    rw [sampled_idle T hrs hp] at hu ⊢
    obtain ⟨hf, rfl⟩ := perform_issueWrite_next hp hT hu
    exact .inr (.inl ⟨rfl, rfl, hf, rfl⟩)
  | StartConversion =>
    rcases polled _ (by rw [sampled_startConversion T hrs, hrs]) with ⟨hq, hn, hd⟩ | ⟨hn, rfl⟩ | ⟨hq, hn, rfl⟩
    · cases hd; exact .inr (.inr (.inl ⟨rfl, hq, hn, rfl⟩))
    · exact .inl ⟨by rw [hn, hrs], by simp, rfl⟩
    · exact .inr (.inr (.inr (.inr (.inr (.inr ⟨.inl rfl, hq, hn, rfl⟩)))))
  | WaitConversion =>
    rw [sampled_waitConversion T hrs hp] at hu ⊢
    by_cases hd : 10 ≤ elapsed s S.tConv
    · rw [if_pos hd] at hu ⊢
      obtain ⟨hf, rfl⟩ := perform_issueWrite_next hp hT hu
      exact .inr (.inr (.inr (.inl ⟨rfl, hd, rfl, hf, rfl⟩)))
    · rw [if_neg hd] at hu ⊢
      cases hu
      exact .inl ⟨rfl, by simp, rfl⟩
  | RequestData =>
    rcases polled _ (by rw [sampled_requestData T hrs, hrs]) with ⟨hq, hn, hd⟩ | ⟨hn, rfl⟩ | ⟨hq, hn, rfl⟩
    · obtain ⟨hf, rfl⟩ := perform_issueRead_next hp hT hd
      exact .inr (.inr (.inr (.inr (.inl ⟨rfl, hq, hn, hf, rfl⟩))))
    · exact .inl ⟨by rw [hn, hrs], by simp, rfl⟩
    · exact .inr (.inr (.inr (.inr (.inr (.inr ⟨.inr (.inl rfl), hq, hn, rfl⟩)))))
  | WaitData =>
    rcases polled _ (by rw [sampled_waitData T hrs, hrs]) with ⟨hq, hn, hd⟩ | ⟨hn, rfl⟩ | ⟨hq, hn, rfl⟩
    · cases hd; exact .inr (.inr (.inr (.inr (.inr (.inl ⟨rfl, hq, hn, rfl⟩)))))
    · exact .inl ⟨by rw [hn, hrs], by simp, rfl⟩
    · exact .inr (.inr (.inr (.inr (.inr (.inr ⟨.inr (.inr rfl), hq, hn, rfl⟩)))))
  | Complete =>
    rw [sampled_complete T hrs] at hu ⊢
    cases hu
    exact .inl ⟨rfl, by simp, rfl⟩
  | Error =>
    rw [sampled_error T hrs] at hu ⊢
    cases hu
    exact .inl ⟨rfl, by simp, rfl⟩

end Sys2Proof.Laws
end

