-- ==== Sys2Proof/Laws/Step.lean ====
section
/-! SUPPORT. What an operation and a step can do, said once for all operations and all agents. -/

namespace Sys2Proof.Laws

open Sys2Proof.Machine

/-- A decoded command byte of the TEMP device. -/
theorem decodeTempCommand_ok {b : Nat} {cmd : Byte} {stop : Bool} {i : Instr} (h : decodeTempCommand b cmd stop = .ok i) :
    i = .tReset b stop ∨ i = .tConvert b stop ∨ i = .tAdcRead b stop ∨
      i = .tPromRead b (cmd.extractLsb' 1 3).toNat stop := by
  unfold decodeTempCommand at h
  repeat' split at h
  all_goals cases h
  all_goals simp

/-- What the decoder reads is well formed. -/
theorem decode_wellFormed {c : Call} {i : Instr} {left : List Byte} (h : decode c = .ok (i, left)) : i.wellFormed = true := by
  cases c with
  | bytes k bs =>
    cases bs with
    | nil => cases h
    | cons op bs =>
      simp only [decode, decodeOpcode] at h
      split at h
      all_goals first
        | (cases h <;> rfl)
        | (unfold decodeOperands2 at h; split at h <;> cases h; rfl)
        | (unfold decodeOperands3 at h; split at h <;> cases h; rfl)
        | (unfold decodeOperands4 at h; split at h <;> cases h; rfl)
  | frame b f =>
    simp only [decode, decodeFrame] at h
    split at h
    · next j hj =>
      cases h
      split at hj
      · rcases decodeTempCommand_ok hj with rfl | rfl | rfl | rfl
        · rfl
        · rfl
        · rfl
        · exact decide_eq_true (f.cmd.extractLsb' 1 3).isLt
      · split at hj
        · unfold decodePresCommand at hj
          split at hj <;> cases hj <;> rfl
        · cases hj
    · cases h

/-- The command byte of a well-formed PROM read is in the device's map. -/
theorem promCommand_listed (i : Nat) (hi : i < 8) (stop : Bool) :
    decodeFrame 0 ⟨0x77, 0xA0 + 2 * BitVec.ofNat 8 i, stop⟩ = .ok (.tPromRead 0 i stop) := by
  have : i = 0 ∨ i = 1 ∨ i = 2 ∨ i = 3 ∨ i = 4 ∨ i = 5 ∨ i = 6 ∨ i = 7 := by omega
  rcases this with rfl | rfl | rfl | rfl | rfl | rfl | rfl | rfl <;> simp [decodeFrame, decodeTempCommand]

/-- Everything a well-formed operation that goes on can do. The cases are: a result and nothing else; the same with a drawn result;
RESET; a tick; INIT; READ_BLOCKING; a frame of one of the two devices. -/
theorem exec_next {i : Instr} {s t : State} (hw : i.wellFormed = true) (h : exec i s = .next t) :
    (∃ r, t = setRet r s) ∨
    (∃ k r, i = .isInit k ∧ t = nextDraw (setRet r s)) ∨
    (∃ k S, i = .reset k ∧ s.sensors[k]? = some S ∧ S.profile = .TEMP ∧ t = setRet .none (returnToIdle k s)) ∨
    (∃ k report, (i = .advance k ∨ i = .tick k) ∧ advanceWith report k s = .next t) ∨
    (∃ k, i = .init k ∧ execInit k s = .next t) ∨
    (∃ k, i = .readBlocking k ∧ execReadBlocking k s = .next t) ∨
    (∃ b f j, Safety.subject i = none ∧ decodeFrame 0 f = .ok j ∧ issueFrame b f s = .next t) := by
  cases i with
  | advance k => exact .inr (.inr (.inr (.inl ⟨k, .readState, .inl rfl, h⟩)))
  | tick k => exact .inr (.inr (.inr (.inl ⟨k, fun r => .tick (tickOf r), .inr rfl, h⟩)))
  | query k =>
    obtain ⟨S, -, -, h⟩ := onSensor_next h
    cases h
    exact .inl ⟨_, rfl⟩
  | reset k =>
    obtain ⟨S, hS, ha, h⟩ := onSensor_next h
    cases h
    refine .inr (.inr (.inl ⟨k, S, rfl, hS, ?_, rfl⟩))
    cases hq : S.profile with
    | TEMP => rfl
    | PRES => rw [hq] at ha; cases ha
  | getValue k =>
    obtain ⟨S, -, -, h⟩ := onSensor_next h
    split at h
    · cases h; exact .inl ⟨_, rfl⟩
    · cases h
  | init k => exact .inr (.inr (.inr (.inr (.inl ⟨k, rfl, h⟩))))
  | isInit k =>
    obtain ⟨S, -, -, h⟩ := onSensor_next h
    split at h
    · cases h; exact .inl ⟨_, rfl⟩
    · cases h; exact .inr (.inl ⟨k, _, rfl, rfl⟩)
  | readBlocking k => exact .inr (.inr (.inr (.inr (.inr (.inl ⟨k, rfl, h⟩)))))
  | decode16 hi lo => cases h; exact .inl ⟨_, rfl⟩
  | decode24 b0 b1 b2 => cases h; exact .inl ⟨_, rfl⟩
  | decode32 hi16 lo16 => cases h; exact .inl ⟨_, rfl⟩
  | split32 u => cases h; exact .inl ⟨_, rfl⟩
  | bitcastF32 u => cases h; exact .inl ⟨_, rfl⟩
  | bitcastU32 f => cases h; exact .inl ⟨_, rfl⟩
  | fieldEquip w0 => cases h; exact .inl ⟨_, rfl⟩
  | fieldPlace w0 => cases h; exact .inl ⟨_, rfl⟩
  | fieldFile w1 => cases h; exact .inl ⟨_, rfl⟩
  | fieldCode w0 w1 => cases h; exact .inl ⟨_, rfl⟩
  | fieldMode s0 => cases h; exact .inl ⟨_, rfl⟩
  | fieldDate s0 => cases h; exact .inl ⟨_, rfl⟩
  | tReset b stop => exact .inr (.inr (.inr (.inr (.inr (.inr ⟨b, _, .tReset 0 stop, rfl, rfl, h⟩)))))
  | tConvert b stop => exact .inr (.inr (.inr (.inr (.inr (.inr ⟨b, _, .tConvert 0 stop, rfl, rfl, h⟩)))))
  | tAdcRead b stop => exact .inr (.inr (.inr (.inr (.inr (.inr ⟨b, _, .tAdcRead 0 stop, rfl, rfl, h⟩)))))
  | tPromRead b i stop =>
    exact .inr (.inr (.inr (.inr (.inr (.inr ⟨b, _, _, rfl, promCommand_listed i (of_decide_eq_true hw) stop, h⟩)))))
  | pMeasure b stop => exact .inr (.inr (.inr (.inr (.inr (.inr ⟨b, _, .pMeasure 0 stop, rfl, rfl, h⟩)))))
  | pMemCust0 b stop => exact .inr (.inr (.inr (.inr (.inr (.inr ⟨b, _, .pMemCust0 0 stop, rfl, rfl, h⟩)))))
  | pMemCust1 b stop => exact .inr (.inr (.inr (.inr (.inr (.inr ⟨b, _, .pMemCust1 0 stop, rfl, rfl, h⟩)))))
  | pMemScaling0 b stop => exact .inr (.inr (.inr (.inr (.inr (.inr ⟨b, _, .pMemScaling0 0 stop, rfl, rfl, h⟩)))))
  | pMemPminHi b stop => exact .inr (.inr (.inr (.inr (.inr (.inr ⟨b, _, .pMemPminHi 0 stop, rfl, rfl, h⟩)))))
  | pMemPminLo b stop => exact .inr (.inr (.inr (.inr (.inr (.inr ⟨b, _, .pMemPminLo 0 stop, rfl, rfl, h⟩)))))
  | pMemPmaxHi b stop => exact .inr (.inr (.inr (.inr (.inr (.inr ⟨b, _, .pMemPmaxHi 0 stop, rfl, rfl, h⟩)))))
  | pMemPmaxLo b stop => exact .inr (.inr (.inr (.inr (.inr (.inr ⟨b, _, .pMemPmaxLo 0 stop, rfl, rfl, h⟩)))))

/-- The state with another script. -/
theorem withScript_fields (s : State) (l : List Line) :
    ({ s with script := l } : State).sensors = s.sensors ∧ ({ s with script := l } : State).buses = s.buses ∧
      ({ s with script := l } : State).CLK = s.CLK ∧ ({ s with script := l } : State).blk = s.blk := ⟨rfl, rfl, rfl, rfl⟩

/-- Everything a step that goes on can do: `u` is the state with the script the step leaves. The cases are: nothing moves; the
clock; a transport; a line of the block with nothing to do; an operation; a construction; the density; a derived quantity; a
micro-step. -/
theorem step_next {s t : State} (h : step s = .next t) :
    s.FAULT = false ∧ ∃ rest, let u : State := { s with script := rest }
      (t = u) ∨
      (∃ d, t = advanceClock d u) ∨
      (∃ b c, complete b c u = .next t) ∨
      (∃ i, s.blk = none ∧ Safety.taken s = some i ∧ i.wellFormed = true ∧ exec i u = .next t) ∨
      (∃ p b, s.blk = none ∧ constructSensor p b u = .next t) ∨
      (∃ v, t = setFluidDensity v u) ∨
      (∃ k q, deriveQuantity k q u = .next t) ∨
      (∃ B, s.blk = some B ∧ microStep B u = .next t) := by
  unfold step at h
  split at h
  · cases h
  · next hF =>
    refine ⟨by simpa using hF, ?_⟩
    unfold runScript at h
    split at h
    · next hs => cases h; exact ⟨s.script, .inl rfl⟩
    · next l rest hb hs =>
      cases l with
      | clock d => cases h; exact ⟨rest, .inr (.inl ⟨d, rfl⟩)⟩
      | bus b c => exact ⟨rest, .inr (.inr (.inl ⟨b, c, h⟩))⟩
      | block => cases h; exact ⟨rest, .inl rfl⟩
      | host c =>
        simp only [takeLine] at h
        split at h
        · cases h
        · next i left hd =>
          exact ⟨_, .inr (.inr (.inr (.inl ⟨i, hb, by simp [Safety.taken, hb, hs, hd], decode_wellFormed hd, h⟩)))⟩
      | construct p b => exact ⟨rest, .inr (.inr (.inr (.inr (.inl ⟨p, b, hb, h⟩))))⟩
      | setDensity v => cases h; exact ⟨rest, .inr (.inr (.inr (.inr (.inr (.inl ⟨v, rfl⟩)))))⟩
      | derive k q => exact ⟨rest, .inr (.inr (.inr (.inr (.inr (.inr (.inl ⟨k, q, h⟩))))))⟩
    · next B hb hs =>
      exact ⟨s.script, .inr (.inr (.inr (.inr (.inr (.inr (.inr ⟨B, hb, h⟩))))))⟩
    · next B l rest hb hs =>
      cases l with
      | clock d => cases h; exact ⟨rest, .inr (.inl ⟨d, rfl⟩)⟩
      | bus b c => exact ⟨rest, .inr (.inr (.inl ⟨b, c, h⟩))⟩
      | block => exact ⟨rest, .inr (.inr (.inr (.inr (.inr (.inr (.inr ⟨B, hb, h⟩))))))⟩
      | host c => exact ⟨s.script, .inr (.inr (.inr (.inr (.inr (.inr (.inr ⟨B, hb, h⟩))))))⟩
      | construct p b => exact ⟨s.script, .inr (.inr (.inr (.inr (.inr (.inr (.inr ⟨B, hb, h⟩))))))⟩
      | setDensity v => exact ⟨s.script, .inr (.inr (.inr (.inr (.inr (.inr (.inr ⟨B, hb, h⟩))))))⟩
      | derive k q => exact ⟨s.script, .inr (.inr (.inr (.inr (.inr (.inr (.inr ⟨B, hb, h⟩))))))⟩

end Sys2Proof.Laws
end

