-- ==== Sys2Proof/Tests/Slice0.lean ====
section
/-! SUPPORT. Tests: the smoke test of WellFormed; words written out from 30_encoding; the vectors of 95_test_vectors, one step each;
and, for every statement with hypotheses, a state and operands that meet them. -/

namespace Sys2Proof.Tests

open Sys2Proof Sys2Proof.Machine Sys2Proof.Safety

/-! ## Small states -/

/-- A TEMP instance on bus 0 with both timers stamped at 100. -/
def temp (r : ReadState) : Sensor := { Sensor.construct .TEMP 0 with rs := r, tOp := some 100, tConv := some 100 }

/-- A PRES instance on bus 0 with both timers stamped at 100. -/
def pres : Sensor := { Sensor.construct .PRES 0 with tOp := some 100, tConv := some 100 }

/-- A transport with nothing in flight whose last transaction finished, with error or without; its error code is 7. -/
def idle (err : Bool) : Transport := ⟨none, true, err, 7, 3⟩

/-- A transport with `t` in flight. -/
def busy (t : Transaction) : Transport := ⟨some t, false, false, 7, 0⟩

/-- One instance on one bus. -/
def one (S : Sensor) (T : Transport) (now : Nat) (lines : List Line) : State :=
  { State.launch [] 0 with sensors := [S], buses := [T], CLK := now, script := lines }

/-- The same inside a blocking operation. -/
def held (S : Sensor) (T : Transport) (now : Nat) (B : Blocking) : State := { one S T now [] with blk := some B }

/-- What a step returned. -/
def retOf : Host.Outcome State Fault Refusal → Option Result
  | .next t => some t.ret
  | .fault _ => none
  | .refused _ => none

/-- The instance after a step. -/
def sensorOf : Host.Outcome State Fault Refusal → Option Sensor
  | .next t => t.sensors[0]?
  | .fault _ => none
  | .refused _ => none

/-- What is in flight after a step. -/
def inflightOf : Host.Outcome State Fault Refusal → Option Transaction
  | .next t => t.buses[0]?.bind Transport.inflight
  | .fault _ => none
  | .refused _ => none

/-- The blocking operation after a step. -/
def blkOf : Host.Outcome State Fault Refusal → Option Blocking
  | .next t => t.blk
  | .fault _ => none
  | .refused _ => none

/-- The diagnostics after a step. -/
def diagOf : Host.Outcome State Fault Refusal → Option (List DiagEvent)
  | .next t => some t.diag
  | .fault _ => none
  | .refused _ => none

/-- The fault of a step. -/
def faultOf : Host.Outcome State Fault Refusal → Option Fault
  | .next _ => none
  | .fault r => some r
  | .refused _ => none

/-- The refusal of a step. -/
def refusalOf : Host.Outcome State Fault Refusal → Option Refusal
  | .next _ => none
  | .fault _ => none
  | .refused r => some r

/-- The instruction a call decodes to. -/
def readAs (c : Call) : Option Instr :=
  match decode c with
  | .ok (i, _) => some i
  | .error _ => none

/-- The store program P4 of 95_test_vectors leaves in the raw words. -/
def storeP4 : PresWords :=
  ⟨.word 0x1723, .word 0xBEEF, .word 0x52A5, .word 0xBF80, .word 0x0000, .word 0x4120, .word 0x0000⟩

/-- A PRES instance at the end of P4. -/
def presP4 : Sensor :=
  { pres with cal := { Cal.unwritten with W := storeP4, fields := some (decodeFields 0 storeP4) }, initOk := true }

/-! ## WellFormed: the one check, on each side of its bound -/

theorem test_promIndex_8_refused : (Instr.tPromRead 0 8 true).wellFormed = false := by decide
theorem test_promIndex_7_accepted : (Instr.tPromRead 0 7 true).wellFormed = true := by decide

/-! ## Decoding: words from 30_encoding R102 and R110 -/

theorem test_decode_hostop :
    readAs (.bytes 4 [0x01]) = some (.advance 4) ∧ readAs (.bytes 0 [0x02]) = some (.tick 0) ∧
    readAs (.bytes 0 [0x03]) = some (.query 0) ∧ readAs (.bytes 0 [0x04]) = some (.reset 0) ∧
    readAs (.bytes 0 [0x05]) = some (.getValue 0) ∧ readAs (.bytes 0 [0x06]) = some (.init 0) ∧
    readAs (.bytes 1 [0x07]) = some (.isInit 1) ∧ readAs (.bytes 1 [0x08]) = some (.readBlocking 1) := by decide

theorem test_decode_codecop_bytes :
    readAs (.bytes 0 [0x10, 0x01, 0x80]) = some (.decode16 0x01 0x80) ∧
    readAs (.bytes 0 [0x11, 0x8F, 0x1B, 0x94]) = some (.decode24 0x8F 0x1B 0x94) ∧
    readAs (.bytes 0 [0x12, 0x80, 0x00, 0x00, 0x01]) = some (.decode32 0x8000 0x0001) ∧
    readAs (.bytes 0 [0x13, 0x17, 0x23, 0xBE, 0xEF]) = some (.split32 0x1723BEEF) ∧
    readAs (.bytes 0 [0x14, 0x3F, 0x80, 0x00, 0x00]) = some (.bitcastF32 0x3F800000) ∧
    readAs (.bytes 0 [0x15, 0xBF, 0x80, 0x00, 0x00]) = some (.bitcastU32 ⟨0xBF800000⟩) := by decide

theorem test_decode_codecop_fields :
    readAs (.bytes 0 [0x18, 0x17, 0x23]) = some (.fieldEquip 0x1723) ∧
    readAs (.bytes 0 [0x19, 0x17, 0x23]) = some (.fieldPlace 0x1723) ∧
    readAs (.bytes 0 [0x1A, 0xBE, 0xEF]) = some (.fieldFile 0xBEEF) ∧
    readAs (.bytes 0 [0x1B, 0x17, 0x23, 0xBE, 0xEF]) = some (.fieldCode 0x1723 0xBEEF) ∧
    readAs (.bytes 0 [0x1C, 0x52, 0xA5]) = some (.fieldMode 0x52A5) ∧
    readAs (.bytes 0 [0x1D, 0x52, 0xA5]) = some (.fieldDate 0x52A5) := by decide

theorem test_decode_frames_temp :
    readAs (.frame 0 ⟨0x77, 0x1E, true⟩) = some (.tReset 0 true) ∧
    readAs (.frame 0 ⟨0x77, 0x48, true⟩) = some (.tConvert 0 true) ∧
    readAs (.frame 0 ⟨0x77, 0x00, true⟩) = some (.tAdcRead 0 true) ∧
    readAs (.frame 0 ⟨0x77, 0xA0, true⟩) = some (.tPromRead 0 0 true) ∧
    readAs (.frame 0 ⟨0x77, 0xA2, true⟩) = some (.tPromRead 0 1 true) ∧
    readAs (.frame 0 ⟨0x77, 0xAE, true⟩) = some (.tPromRead 0 7 true) := by decide

theorem test_decode_frames_pres :
    readAs (.frame 1 ⟨0x40, 0xAC, true⟩) = some (.pMeasure 1 true) ∧
    readAs (.frame 1 ⟨0x40, 0x00, true⟩) = some (.pMemCust0 1 true) ∧
    readAs (.frame 1 ⟨0x40, 0x01, true⟩) = some (.pMemCust1 1 true) ∧
    readAs (.frame 1 ⟨0x40, 0x12, true⟩) = some (.pMemScaling0 1 true) ∧
    readAs (.frame 1 ⟨0x40, 0x13, true⟩) = some (.pMemPminHi 1 true) ∧
    readAs (.frame 1 ⟨0x40, 0x14, true⟩) = some (.pMemPminLo 1 true) ∧
    readAs (.frame 1 ⟨0x40, 0x15, true⟩) = some (.pMemPmaxHi 1 true) ∧
    readAs (.frame 1 ⟨0x40, 0x16, false⟩) = some (.pMemPmaxLo 1 false) := by decide

/-- V72 of 95_test_vectors, and command bytes next to those of the map. -/
theorem test_decode_reserved :
    readAs (.bytes 0 [0x00]) = none ∧ readAs (.bytes 0 [0x09]) = none ∧ readAs (.bytes 0 [0x16, 0, 0]) = none ∧
    readAs (.bytes 0 [0x17, 0, 0]) = none ∧ readAs (.bytes 0 [0x1E]) = none ∧ readAs (.bytes 0 [0xFF]) = none ∧
    readAs (.bytes 0 []) = none ∧ readAs (.bytes 0 [0x10, 0x01]) = none ∧
    readAs (.frame 0 ⟨0x77, 0xA1, true⟩) = none ∧ readAs (.frame 0 ⟨0x77, 0xB0, true⟩) = none ∧
    readAs (.frame 0 ⟨0x40, 0x17, true⟩) = none ∧ readAs (.frame 0 ⟨0x76, 0x48, true⟩) = none := by decide

/-- The program P1 to P3 encode a cycle as one byte each (30_encoding R128): the first is taken, the others stay. -/
theorem test_script_bytes :
    step (one (temp .Complete) (idle false) 100 [.host (.bytes 0 [0x04, 0x02])]) =
      .next { one (temp .Idle) (idle false) 100 [.host (.bytes 0 [0x02])] with ret := .none } := rfl

/-! ## The Read State Machine -/

/-- V59 and V59b: 9 ms wait, 10 ms issue, whatever the transport says. -/
theorem test_advance_waitConversion :
    retOf (exec (.advance 0) (one (temp .WaitConversion) (idle true) 109 [])) = some (.readState .WaitConversion) ∧
    inflightOf (exec (.advance 0) (one (temp .WaitConversion) (idle true) 110 [])) = some (.write 0x77 [0x00] true) := by
  decide

/-- V59d: the bytes `8F 1B 94` give `D1 = 9378708`. -/
theorem test_advance_waitData :
    (sensorOf (exec (.advance 0)
      (one { temp .WaitData with buf := [(0, 0x8F), (1, 0x1B), (2, 0x94)] } (idle false) 100 []))).bind Sensor.rawD1 =
      some 9378708 := by decide

/-- V46 and V47: 200 ms are not enough, 201 are. -/
theorem test_tick_timeout :
    retOf (exec (.tick 0) (one (temp .RequestData) (busy (.write 0x77 [0x00] true)) 300 [])) = some (.tick .Running) ∧
    retOf (exec (.tick 0) (one (temp .RequestData) (busy (.write 0x77 [0x00] true)) 301 [])) = some (.tick .Failure) := by
  decide

/-- V51 and V53: late but good is no timeout; an error wins over the time. -/
theorem test_tick_late :
    retOf (exec (.tick 0) (one (temp .StartConversion) (idle false) 5100 [])) = some (.tick .Running) ∧
    diagOf (exec (.tick 0) (one (temp .StartConversion) (idle true) 5100 [])) = some [.busErrorSeen 7] := by decide

theorem test_query :
    retOf (exec (.query 0) (one (temp .WaitData) (idle false) 0 [])) = some (.query .WaitData false) ∧
    retOf (exec (.query 0) (one (temp .Error) (idle false) 0 [])) = some (.query .Error true) := by decide

/-- P6: RESET leaves the read in flight. -/
theorem test_reset :
    inflightOf (exec (.reset 0) (one (temp .WaitData) (busy (.read 0x77 0 3 true)) 0 [])) = some (.read 0x77 0 3 true) := by
  decide

/-- P6: and the next tick meets it. -/
theorem test_reset_then_tick :
    faultOf (exec (.tick 0) (one (temp .Idle) (busy (.read 0x77 0 3 true)) 0 [])) = some .busyIssue := by decide

theorem test_getValue :
    faultOf (exec (.getValue 0) (one (temp .Complete) (idle false) 0 [])) = some .unwrittenValue ∧
    retOf (exec (.getValue 0) (one { temp .Error with val := some (.temp ⟨5⟩) } (idle false) 0 [])) =
      some (.value (.temp ⟨5⟩)) := by decide

/-! ## The blocking operations -/

/-- V60, V61: the first transaction on each profile. -/
theorem test_init_first :
    inflightOf (exec (.init 0) (one (temp .Idle) (idle false) 0 [])) = some (.write 0x77 [0x1E] true) ∧
    inflightOf (exec (.init 0) (one pres (idle false) 0 [])) = some (.write 0x40 [0x00] true) := by decide

/-- V65: INIT again is refused. -/
theorem test_init_again : refusalOf (exec (.init 0) (one presP4 (idle false) 0 [])) = some .alreadyInitialised := by decide

/-- P4: the reply `40 17 23` gives `W[0x00] = 0x1723`, and its three bytes are counted. -/
theorem test_init_word :
    (sensorOf (microStep ⟨0, .dataWait 0, 0⟩
      (one { pres with buf := [(0, 0x40), (1, 0x17), (2, 0x23)] } (idle false) 100 []))).map (fun S => S.cal.W.w00) =
      some (.word 0x1723) ∧
    blkOf (microStep ⟨0, .dataWait 0, 0⟩
      (one { pres with buf := [(0, 0x40), (1, 0x17), (2, 0x23)] } (idle false) 100 [])) = some ⟨0, .cmdIssue 1, 3⟩ := by
  decide

/-- P4: the fields at its end. -/
theorem test_decodeFields_P4 :
    let f := decodeFields 0 storeP4
    f.equipment = 5 ∧ f.place = 291 ∧ f.file = 0xBEEF ∧ f.code = 0x1723BEEF ∧ f.mode = 1 ∧ f.year = 2020 ∧ f.month = 5 ∧
      f.day = 9 ∧ f.P_min = ⟨0xBF800000⟩ ∧ f.P_max = ⟨0x41200000⟩ ∧ f.P_mode = Config.pModeSealed := by decide

/-- V62: no byte counted, INIT returns false. -/
theorem test_init_absent :
    retOf (microStep ⟨0, .dataWait 6, 0⟩ (one pres ⟨none, true, true, 7, 0⟩ 100 [])) = some (.bool false) := by decide

/-- V22 and V23. -/
theorem test_isInit :
    retOf (exec (.isInit 0) (one { pres with cal := { Cal.unwritten with
      fields := some (decodeFields 0 { storeP4 with w00 := .word 0xFC00 }) } } (idle false) 0 [])) = some (.bool false) ∧
    retOf (exec (.isInit 0) (one { pres with cal := { Cal.unwritten with
      fields := some (decodeFields 0 { storeP4 with w00 := .word 0xFBFF }) } } (idle false) 0 [])) = some (.bool true) := by
  decide

/-- P5: the request, and V66: 8 ms wait, 9 ms read. -/
theorem test_readBlocking_request :
    inflightOf (exec (.readBlocking 0) (one presP4 (idle false) 100 [])) = some (.write 0x40 [0xAC] true) ∧
    inflightOf (microStep ⟨0, .measureDelay, 0⟩ (one presP4 (idle false) 108 [])) = none ∧
    inflightOf (microStep ⟨0, .measureDelay, 0⟩ (one presP4 (idle false) 109 [])) = some (.read 0x40 0 5 true) := by decide

/-- P5: the reply `40 80 00 5F A0`. -/
theorem test_readBlocking_reply :
    (sensorOf (microStep ⟨0, .measureData, 0⟩
      (one { presP4 with buf := [(0, 0x40), (1, 0x80), (2, 0x00), (3, 0x5F), (4, 0xA0)] } (idle false) 112 []))).bind
        Sensor.rawPres = some ⟨0x40, 32768, 24480⟩ := by decide

/-! ## The codec: V1 to V29 -/

theorem test_decode16 :
    retOf (exec (.decode16 0x6F 0x1E) State.reset) = some (.u16 28446) ∧
    retOf (exec (.decode16 0x01 0x80) State.reset) = some (.u16 384) := by decide
theorem test_decode24 : retOf (exec (.decode24 0x8F 0x1B 0x94) State.reset) = some (.u24 9378708) := by decide
theorem test_decode32 :
    retOf (exec (.decode32 0x8000 0x0001) State.reset) = some (.u32 0x80000001) ∧
    retOf (exec (.decode32 0x41F0 0x0000) State.reset) = some (.u32 0x41F00000) := by decide
theorem test_split32 : retOf (exec (.split32 0x1723BEEF) State.reset) = some (.pair 0x1723 0xBEEF) := by decide
theorem test_bitcastF32 : retOf (exec (.bitcastF32 0x80000000) State.reset) = some (.f32 ⟨0x80000000⟩) := by decide
theorem test_bitcastU32 : retOf (exec (.bitcastU32 ⟨0xBF800000⟩) State.reset) = some (.u32 0xBF800000) := by decide
theorem test_fieldEquip :
    retOf (exec (.fieldEquip 0x1723) State.reset) = some (.field6 5) ∧
    retOf (exec (.fieldEquip 0xFBFF) State.reset) = some (.field6 62) := by decide
theorem test_fieldPlace :
    retOf (exec (.fieldPlace 0x1723) State.reset) = some (.field9 291) ∧
    retOf (exec (.fieldPlace 0x0200) State.reset) = some (.field9 0) := by decide
theorem test_fieldFile : retOf (exec (.fieldFile 0xBEEF) State.reset) = some (.u16 0xBEEF) := by decide
theorem test_fieldCode : retOf (exec (.fieldCode 0x1723 0xBEEF) State.reset) = some (.u32 0x1723BEEF) := by decide
theorem test_fieldMode : retOf (exec (.fieldMode 0x52A6) State.reset) = some (.field2 2) := by decide
theorem test_fieldDate :
    retOf (exec (.fieldDate 0x52A5) State.reset) = some (.date 2020 5 9) ∧
    retOf (exec (.fieldDate 0xFFFF) State.reset) = some (.date 2041 15 31) := by decide

/-! ## The bus commands -/

theorem test_frames_temp :
    inflightOf (exec (.tReset 0 true) State.reset) = some (.write 0x77 [0x1E] true) ∧
    inflightOf (exec (.tConvert 0 true) State.reset) = some (.write 0x77 [0x48] true) ∧
    inflightOf (exec (.tAdcRead 0 false) State.reset) = some (.write 0x77 [0x00] false) ∧
    inflightOf (exec (.tPromRead 0 7 true) State.reset) = some (.write 0x77 [0xAE] true) := by decide

theorem test_frames_pres :
    inflightOf (exec (.pMeasure 0 true) State.reset) = some (.write 0x40 [0xAC] true) ∧
    inflightOf (exec (.pMemCust0 0 true) State.reset) = some (.write 0x40 [0x00] true) ∧
    inflightOf (exec (.pMemCust1 0 true) State.reset) = some (.write 0x40 [0x01] true) ∧
    inflightOf (exec (.pMemScaling0 0 true) State.reset) = some (.write 0x40 [0x12] true) ∧
    inflightOf (exec (.pMemPminHi 0 true) State.reset) = some (.write 0x40 [0x13] true) ∧
    inflightOf (exec (.pMemPminLo 0 true) State.reset) = some (.write 0x40 [0x14] true) ∧
    inflightOf (exec (.pMemPmaxHi 0 true) State.reset) = some (.write 0x40 [0x15] true) ∧
    inflightOf (exec (.pMemPmaxLo 0 true) State.reset) = some (.write 0x40 [0x16] true) := by decide

/-! ## The other agents -/

/-- P6': the abandoned read fills the buffer although the instance is in Idle. -/
theorem test_late_completion :
    (sensorOf (complete 0 (.okRead [0xAA, 0xBB, 0xCC]) (one (temp .Idle) (busy (.read 0x77 0 3 true)) 0 []))).map Sensor.buf =
      some [(0, 0xAA), (1, 0xBB), (2, 0xCC)] := by decide

/-- U7: a short transfer leaves the cells that were not received without a known byte. -/
theorem test_short_transfer :
    (sensorOf (complete 0 (.okRead [0xAA]) (one { temp .WaitData with buf := [(0, 1), (1, 2), (2, 3), (3, 4)] }
      (busy (.read 0x77 0 3 true)) 0 []))).map Sensor.buf = some [(0, 0xAA), (3, 4)] := by decide

/-- V30, V34, V37, V38: the reference formulas. -/
theorem test_reference_values :
    refP 0 30 0 0 = -15 ∧ refP (-1) 10 1 32768 = 5.5 ∧ refPT 0x000F = -51.2 ∧ refPT 0x5FA0 = 25.3 := by
  refine ⟨?_, ?_, ?_, ?_⟩ <;> simp [refP, refPT, pressureCount, temperatureCount] <;> norm_num

/-- V10 to V16 and K8: the patterns of the named values. -/
theorem test_f32Value :
    f32Value ⟨0x3F800000⟩ = some 1 ∧ f32Value ⟨0xBF800000⟩ = some (-1) ∧ f32Value ⟨0x41F00000⟩ = some 30 ∧
    f32Value ⟨0x43480000⟩ = some 200 ∧ f32Value ⟨0x4480A000⟩ = some 1029 ∧ f32Value ⟨0x7F800000⟩ = none := by
  refine ⟨?_, ?_, ?_, ?_, ?_, ?_⟩ <;> simp [f32Value] <;> norm_num

/-! ## Witnesses: for every statement with hypotheses, a state and operands that meet them, each clause at its bounds -/

theorem test_witness_ResetState : State.reset.buses[1]? = some Transport.launch := rfl

theorem temp_sound (r : ReadState) (n : Nat) (hn : 100 ≤ n) : SensorSound 1 n (temp r) := by
  refine ⟨Nat.zero_lt_one, rfl, ⟨?_, ?_⟩, ⟨fun _ => nofun, fun _ => nofun⟩, nofun, trivial, nofun⟩
  · intro t ht; cases ht; exact hn
  · intro t ht; cases ht; exact hn

/-- A sound state: one TEMP instance on a bus with nothing in flight. -/
theorem one_sound (r : ReadState) (err : Bool) (n : Nat) (hn : 100 ≤ n) (l : List Line) :
    MachineInv (one (temp r) (idle err) n l) := by
  refine ⟨rfl, ?_, ?_, nofun⟩
  · intro S hS; obtain rfl := List.mem_singleton.mp hS; exact temp_sound r n hn
  · intro T hT; obtain rfl := List.mem_singleton.mp hT; exact nofun

theorem test_witness_StepKeepsMachineInv : MachineInv (one (temp .WaitConversion) (idle false) 100 [.clock 5]) ∧
    step (one (temp .WaitConversion) (idle false) 100 [.clock 5]) = .next (one (temp .WaitConversion) (idle false) 105 []) :=
  ⟨one_sound _ _ _ (Nat.le_refl _) _, rfl⟩

theorem test_witness_ReservedCodesRefused :
    (0x00 : Byte).toNat ∉ [0x01, 0x02, 0x03, 0x04, 0x05, 0x06, 0x07, 0x08, 0x10, 0x11, 0x12, 0x13, 0x14, 0x15, 0x18, 0x19, 0x1A,
      0x1B, 0x1C, 0x1D] ∧
    (one (temp .Idle) (idle false) 0 [.host (.bytes 0 [0x00])]).FAULT = false ∧
    (one (temp .Idle) (idle false) 0 [.host (.bytes 0 [0x00])]).blk = none ∧
    ([0x01] : List Byte).length < operandBytes 0x10 ∧ ([0x01, 2, 3] : List Byte).length < operandBytes 0x1B ∧
    (0x76 : BusAddr) ≠ 0x77 ∧ (0x76 : BusAddr) ≠ 0x40 ∧
    (0xA1 : Byte).toNat ∉ [0x1E, 0x48, 0x00, 0xA0, 0xA2, 0xA4, 0xA6, 0xA8, 0xAA, 0xAC, 0xAE] ∧
    (0x17 : Byte).toNat ∉ [0xAC, 0x00, 0x01, 0x12, 0x13, 0x14, 0x15, 0x16] := by decide

theorem test_witness_DecodeInvertsEncode : (Instr.tPromRead 0 0 true).wellFormed = true ∧
    (Instr.tPromRead 0 7 true).wellFormed = true ∧ (Instr.advance 0).wellFormed = true := by decide

theorem test_witness_DecodedCallsReencode : decode (.bytes 5 [0x06, 0x07]) = .ok (.init 5, [0x07]) ∧
    decode (.bytes 5 [0x10, 1, 2, 0x05]) = .ok (.decode16 1 2, [0x05]) ∧
    decode (.frame 0 ⟨0x77, 0xAE, true⟩) = .ok (.tPromRead 0 7 true, []) := ⟨rfl, rfl, rfl⟩

theorem test_witness_StepRunsDecoded :
    ((one (temp .Idle) (idle false) 0 [.host (.bytes 0 [0x02])]).FAULT = false ∧
      (one (temp .Idle) (idle false) 0 [.host (.bytes 0 [0x02])]).blk = none) ∧
    decode (.bytes 0 [0x02]) = .ok (.tick 0, []) ∧ decode (.bytes 0 [0x02, 0x03]) = .ok (.tick 0, [0x03]) ∧
    decode (.frame 0 ⟨0x77, 0x1E, true⟩) = .ok (.tReset 0 true, []) := ⟨⟨rfl, rfl⟩, rfl, rfl, rfl⟩

theorem test_witness_HostHeldWhileBlocking :
    (held pres (idle false) 0 ⟨0, .measureWait, 0⟩).FAULT = false ∧
    (held pres (idle false) 0 ⟨0, .measureWait, 0⟩).blk = some ⟨0, .measureWait, 0⟩ ∧
    (held pres (idle false) 0 ⟨0, .measureWait, 0⟩).script = [] ∧
    Line.host (.bytes 0 [0x02]) ≠ .block ∧ (∀ d, Line.host (.bytes 0 [0x02]) ≠ .clock d) ∧
    ∀ b c, Line.host (.bytes 0 [0x02]) ≠ .bus b c := ⟨rfl, rfl, rfl, nofun, nofun, nofun⟩

theorem test_witness_LinesOfOtherAgents :
    ({ State.reset with FAULT := true } : State).FAULT = true ∧
    (one presP4 (idle false) 0 [.construct .TEMP 0]).buses[0]? ≠ none ∧
    (one presP4 (idle false) 0 [.construct .TEMP 1]).buses[1]? = none ∧
    (one presP4 (idle false) 0 [.derive 0 .depth]).sensors[0]? = some presP4 ∧ presP4.profile = .PRES ∧ presP4.val = none ∧
    (one { presP4 with val := some (.pres ⟨1⟩ ⟨2⟩) } (idle false) 0 [.derive 0 .depth]).sensors[0]? =
      some { presP4 with val := some (.pres ⟨1⟩ ⟨2⟩) } := ⟨rfl, nofun, rfl, rfl, rfl, rfl, rfl⟩

/-- A construction between two cycles: the new instance stands behind the others, and the line is gone. -/
theorem test_construct :
    step (one (temp .Idle) (idle false) 0 [.construct .PRES 0, .clock 1]) =
      .next { one (temp .Idle) (idle false) 0 [.clock 1] with sensors := [temp .Idle, Sensor.construct .PRES 0] } := rfl

/-- `pressure()` without a factor is `pressure(1.0)`; the documented factors. -/
theorem test_pressure_factors :
    derivedOf (.pressure none) ⟨0⟩ ⟨7⟩ = derivedOf (.pressure (some ⟨0x3F800000⟩)) ⟨0⟩ ⟨7⟩ ∧
    refPressure 2 1 = 2000 ∧ refPressure 2 0.001 = 2 ∧ refPressure 2 100 = 200000 := by
  refine ⟨rfl, ?_, ?_, ?_⟩ <;> simp [refPressure] <;> norm_num

theorem test_witness_PollTable : (temp .RequestData).tOp = some 100 := rfl

theorem has_one (S : Sensor) (T : Transport) (n : Nat) (l : List Line) (h : S.bus = 0) : Has (one S T n l) 0 S T := by
  refine ⟨rfl, ?_⟩
  rw [h]
  rfl

theorem test_witness_AdvanceInIdle : Has (one (temp .Idle) (idle false) 100 []) 0 (temp .Idle) (idle false) ∧
    (temp .Idle).profile = .TEMP ∧ (temp .Idle).rs = .Idle ∧ (idle false).inflight = none := ⟨has_one _ _ _ _ rfl, rfl, rfl, rfl⟩

theorem test_witness_AdvanceOnFailedPoll (r : ReadState) : Has (one (temp r) (idle true) 100 []) 0 (temp r) (idle true) ∧
    (temp r).profile = .TEMP ∧ (temp r).rs = r ∧ (idle true).finished = true ∧ (idle true).error = true :=
  ⟨has_one _ _ _ _ rfl, rfl, rfl, rfl, rfl⟩

/-- At 200 ms the first clause applies, at 201 the second. -/
theorem test_witness_AdvanceOnUnfinishedPoll (r : ReadState) (tr : Transaction) :
    Has (one (temp r) (busy tr) 300 []) 0 (temp r) (busy tr) ∧ Has (one (temp r) (busy tr) 301 []) 0 (temp r) (busy tr) ∧
    (temp r).profile = .TEMP ∧ (temp r).rs = r ∧ (busy tr).finished = false ∧ (temp r).tOp = some 100 ∧ 300 ≤ 100 + 200 ∧
    100 + 200 < 301 :=
  ⟨has_one _ _ _ _ rfl, has_one _ _ _ _ rfl, rfl, rfl, rfl, rfl, by decide, by decide⟩

/-- `AdvanceDoneStartConversion`, `AdvanceDoneRequestData`, `AdvanceDoneWaitData`. -/
theorem test_witness_AdvanceDone (r : ReadState) : Has (one (temp r) (idle false) 100 []) 0 (temp r) (idle false) ∧
    (temp r).profile = .TEMP ∧ (temp r).rs = r ∧ (idle false).finished = true ∧ (idle false).error = false ∧
    (idle false).inflight = none := ⟨has_one _ _ _ _ rfl, rfl, rfl, rfl, rfl, rfl⟩

/-- The store and the buffer of E1. -/
theorem test_witness_AdvanceDoneWaitData :
    let c : Vector CalWord 8 := #v[.word 0, .word 28446, .word 24926, .word 36016, .word 32791, .word 40781, .word 0, .word 0]
    let S : Sensor := { temp .WaitData with buf := [(0, 0x8F), (1, 0x1B), (2, 0x94)], cal := { Cal.unwritten with C := c } }
    Has (one S (idle false) 100 []) 0 S (idle false) ∧ Memory.read S.buf 0 = some 0x8F ∧ Memory.read S.buf 1 = some 0x1B ∧
    Memory.read S.buf 2 = some 0x94 ∧ S.cal.C[1] = .word 28446 ∧ S.cal.C[2] = .word 24926 ∧ S.cal.C[3] = .word 36016 ∧
    S.cal.C[4] = .word 32791 ∧ S.cal.C[5] = .word 40781 := ⟨has_one _ _ _ _ rfl, rfl, rfl, rfl, rfl, rfl, rfl, rfl, rfl⟩

/-- At 9 ms the first clause applies, at 10 the second. -/
theorem test_witness_AdvanceInWaitConversion :
    Has (one (temp .WaitConversion) (idle false) 109 []) 0 (temp .WaitConversion) (idle false) ∧
    Has (one (temp .WaitConversion) (idle false) 110 []) 0 (temp .WaitConversion) (idle false) ∧
    (temp .WaitConversion).tConv = some 100 ∧ 109 < 100 + 10 ∧ 100 + 10 ≤ 110 ∧ (idle false).inflight = none :=
  ⟨has_one _ _ _ _ rfl, has_one _ _ _ _ rfl, rfl, by decide, by decide, rfl⟩

/-- `TerminalStatesSticky`, and of one instance `QueryReturnsStateAndPredicate` and `ResetChangesOnlyPc`. -/
theorem test_witness_TerminalStatesSticky :
    Has (one (temp .Complete) (idle true) 0 []) 0 (temp .Complete) (idle true) ∧ (temp .Complete).rs = .Complete ∧
    Has (one (temp .Error) (idle true) 0 []) 0 (temp .Error) (idle true) ∧ (temp .Error).rs = .Error ∧
    (temp .Error).profile = .TEMP := ⟨has_one _ _ _ _ rfl, rfl, has_one _ _ _ _ rfl, rfl, rfl⟩

theorem test_witness_TickMapsAdvance : ∃ t, exec (.advance 0) (one (temp .Idle) (idle false) 100 []) = .next t := ⟨_, rfl⟩

theorem test_witness_AdvanceAlwaysSteps : MachineInv (one (temp .RequestData) (idle false) 100 []) ∧
    BusFreeAtIssue 0 (one (temp .RequestData) (idle false) 100 []) ∧
    (one (temp .RequestData) (idle false) 100 []).sensors[0]? = some (temp .RequestData) ∧
    (temp .RequestData).profile = .TEMP := by
  refine ⟨one_sound _ _ _ (Nat.le_refl _) _, ?_, rfl, rfl⟩
  rintro S T ⟨hS, hT⟩
  cases hS
  cases hT
  rfl

theorem test_witness_OperationsAdmitted : State.reset.sensors[0]? = some (Sensor.construct .TEMP 0) ∧
    State.reset.sensors[1]? = some (Sensor.construct .PRES 1) := ⟨rfl, rfl⟩

theorem test_witness_GetValueReturnsLastReading :
    (one (temp .Error) (idle true) 0 []).sensors[0]? = some (temp .Error) ∧ (temp .Error).val = none ∧
    (one { pres with val := some (.pres ⟨1⟩ ⟨2⟩) } (idle true) 0 []).sensors[0]? = some { pres with val := some (.pres ⟨1⟩ ⟨2⟩) } :=
  ⟨rfl, rfl, rfl⟩

/-- `BusyBusFaults` and `AbandonedTransactionFaults`: a bus with a transaction in flight, a TEMP and a PRES instance on it. The clause
of `RequestData` needs a status that no run reaches, finished with a transaction in flight; the statement holds there too. -/
theorem test_witness_BusyBusFaults (tr : Transaction) (r : ReadState) :
    Has (one (temp r) (busy tr) 110 []) 0 (temp r) (busy tr) ∧ Has (one pres (busy tr) 110 []) 0 pres (busy tr) ∧
    (busy tr).inflight ≠ none ∧ (temp r).rs = r ∧ (temp r).tConv = some 100 ∧ 100 + 10 ≤ 110 ∧ pres.initOk = false ∧
    (temp r).initOk = false ∧ pres.profile = .PRES ∧
    Has (one (temp r) { busy tr with finished := true } 110 []) 0 (temp r) { busy tr with finished := true } :=
  ⟨has_one _ _ _ _ rfl, has_one _ _ _ _ rfl, nofun, rfl, rfl, by decide, rfl, rfl, rfl, has_one _ _ _ _ rfl⟩

/-- The micro-steps of `BusyBusFaults`: each issuing phase, the delay at its bound, and each wait of INIT timed out at 201 ms with its
transaction still in flight, up to the last word but one. -/
theorem test_witness_BusyBusFaults_micro (tr : Transaction) (ph : Phase) :
    Has (held pres (busy tr) 301 ⟨0, ph, 0⟩) 0 pres (busy tr) ∧ (⟨0, ph, 0⟩ : Blocking).phase = ph ∧ (busy tr).inflight ≠ none ∧
    pres.profile = .PRES ∧ pres.tConv = some 100 ∧ 100 + 9 ≤ 109 ∧
    pollOf (held pres (busy tr) 301 ⟨0, ph, 0⟩) pres (busy tr) = .TimedOut ∧ 5 + 1 < pres.profile.nCal :=
  ⟨⟨rfl, rfl⟩, rfl, nofun, rfl, rfl, by decide, rfl, by decide⟩

/-- 42_blocking_ops R218 (a), on the machine itself: the wait of the reset pulse times out, and the next micro-step faults. -/
theorem test_init_after_timeout :
    let s := held (temp .Idle) (busy (.write 0x77 [0x1E] true)) 301 ⟨0, .resetWait, 0⟩
    ∃ t, step s = .next t ∧ t.diag = [.timeoutSeen] ∧ step t = .fault .busyIssue := ⟨_, rfl, rfl, rfl⟩

/-- One witness per disjunct: nothing, RESET, a tick. -/
theorem test_witness_OnlyListedTransfers :
    step (one (temp .Error) (idle true) 100 [.clock 1]) = .next (one (temp .Error) (idle true) 101 []) ∧
    (∃ t, step (one (temp .Error) (idle true) 100 [.host (.bytes 0 [0x04])]) = .next t ∧ t.sensors[0]? = some (temp .Idle)) ∧
    ∃ t, step (one (temp .StartConversion) (idle false) 100 [.host (.bytes 0 [0x01])]) = .next t ∧
      t.sensors[0]? = some (temp .WaitConversion) := ⟨rfl, ⟨_, rfl, rfl⟩, ⟨_, rfl, rfl⟩⟩

/-- `OwnTransactionKept`: a cycle's own completion. -/
theorem test_witness_OwnTransactionKept :
    let s := one (temp .StartConversion) (busy (.write 0x77 [0x48] true)) 100 [.bus 0 (.okWrite 1)]
    let t := one (temp .StartConversion) ⟨none, true, false, 7, 1⟩ 100 []
    MachineInv s ∧ OwnTransaction 0 s ∧ step s = .next t ∧ SingleOwner 0 s t ∧ NoInitInsideCycle 0 t := by
  refine ⟨⟨rfl, ?_, ?_, nofun⟩, ?_, rfl, ?_, ?_⟩
  · intro S hS; obtain rfl := List.mem_singleton.mp hS; exact temp_sound _ _ (Nat.le_refl _)
  · intro T hT
    obtain rfl := List.mem_singleton.mp hT
    intro tr htr
    cases htr
    exact ⟨rfl, rfl, 0x48, .tConvert 0 true, rfl, rfl⟩
  · rintro S T tr ⟨hS, hT⟩ htr
    cases hS
    cases hT
    cases htr
    rfl
  · rintro S T S' T' ⟨hS, hT⟩ - - hf -
    cases hS
    cases hT
    cases hf
  · rintro S - - ⟨B, hB, -⟩
    cases hB

/-- A tick that issues: `SingleOwner` where its premises all hold, and where the cycle is not the instance's own it fails. -/
theorem test_witness_SingleOwner :
    let s := one (temp .WaitConversion) (idle false) 110 [.host (.bytes 0 [0x02])]
    (∃ t S' T', step s = .next t ∧ Has t 0 S' T' ∧ T'.inflight = some (.write 0x77 [0x00] true)) ∧
    inCycle (temp .WaitConversion) = true ∧ mover s = some 0 ∧
    mover (one (temp .WaitConversion) (idle false) 110 [.host (.frame 0 ⟨0x77, 0x00, true⟩)]) = none :=
  ⟨⟨_, _, _, rfl, ⟨rfl, rfl⟩, rfl⟩, rfl, rfl, rfl⟩

/-- A sound PRES instance, on a bus that is idle. -/
theorem pres_sound : SensorSound 1 100 pres := by
  refine ⟨Nat.zero_lt_one, rfl, ⟨?_, ?_⟩, ⟨fun _ => nofun, fun _ => nofun⟩, fun _ => rfl, trivial, nofun⟩
  · intro t ht; cases ht; exact Nat.le_refl _
  · intro t ht; cases ht; exact Nat.le_refl _

/-- The blocking clauses of `OwnTransactionKept`: the request of READ_BLOCKING in flight, and the micro-step that issues its read. -/
theorem test_witness_BlockingOwnTransaction :
    let s := { held pres (busy (.write 0x40 [0xAC] true)) 100 ⟨0, .measureWait, 0⟩ with script := [.bus 0 (.okWrite 1)] }
    (MachineInv s ∧ BlockingOwnTransaction s ∧ ∃ t, step s = .next t) ∧
    ∃ t T', step (held pres (idle false) 109 ⟨0, .measureDelay, 0⟩) = .next t ∧ t.buses[0]? = some T' ∧
      T'.inflight = some (.read 0x40 0 5 true) := by
  refine ⟨⟨⟨rfl, ?_, ?_, ?_⟩, ?_, _, rfl⟩, _, _, rfl, rfl, rfl⟩
  · intro S hS; obtain rfl := List.mem_singleton.mp hS; exact pres_sound
  · intro T hT
    obtain rfl := List.mem_singleton.mp hT
    intro tr htr
    cases htr
    exact ⟨rfl, rfl, 0xAC, .pMeasure 0 true, rfl, rfl⟩
  · intro B hB
    cases hB
    exact ⟨pres, rfl, rfl, nofun⟩
  · rintro B S T tr hB ⟨hS, hT⟩ htr
    cases hB
    cases hS
    cases hT
    cases htr
    rfl

/-- `CycleReachesTerminal`: the outside world ticks instance 0, advances the clock by 201, and from then on alternates. -/
def feedTicks : Nat → List Line
  | 0 => [.host (.bytes 0 [0x02])]
  | 1 => [.clock 201]
  | n + 2 => if n % 2 = 0 then [.host (.bytes 0 [0x02])] else [.clock 1]

/-- The instance of that run after its cycle has timed out, `n` steps on. -/
def runError (n : Nat) : State :=
  { one { temp .Error with tOp := some 100 }
      (issued 0 (.write 0x77 [0x48] true)) (301 + (n + 1) / 2) [] with
    diag := [.timeoutSeen], ret := .tick .Failure, draws := 1 }

/-- That run. -/
def runTicks : Nat → State
  | 0 => one (temp .Idle) (idle false) 100 []
  | 1 => { one (temp .StartConversion) (issued 0 (.write 0x77 [0x48] true)) 100 [] with ret := .tick .Running, draws := 1 }
  | 2 => { one (temp .StartConversion) (issued 0 (.write 0x77 [0x48] true)) 301 [] with ret := .tick .Running, draws := 1 }
  | n + 3 => runError n

theorem runTicks_isRun : IsRun runTicks feedTicks := by
  intro n
  match n with
  | 0 => rfl
  | 1 => rfl
  | 2 => rfl
  | n + 3 =>
    rcases Nat.mod_two_eq_zero_or_one n with h | h
    · have hf : feedTicks (n + 3) = [.clock 1] := by simp [feedTicks]; omega
      rw [hf]
      have hr : runTicks (n + 3 + 1) = { runError n with CLK := 301 + (n + 1) / 2 + 1 } := by
        simp only [runTicks, runError, one]
        congr 1
        omega
      rw [hr]
      rfl
    · have hf : feedTicks (n + 3) = [.host (.bytes 0 [0x02])] := by simp [feedTicks]; omega
      rw [hf]
      have hr : runTicks (n + 3 + 1) = runError n := by
        simp only [runTicks, runError, one]
        congr 1
        omega
      rw [hr]
      rfl

theorem test_witness_CycleReachesTerminal : IsRun runTicks feedTicks ∧ MachineInv (runTicks 0) ∧
    (runTicks 0).sensors[0]? = some (temp .Idle) ∧ (temp .Idle).profile = .TEMP ∧ ClockAdvances runTicks ∧
    HostKeepsTicking 0 runTicks feedTicks ∧ NotAbandoned 0 runTicks := by
  refine ⟨runTicks_isRun, one_sound _ _ _ (Nat.le_refl _) _, rfl, rfl, ?_, ?_, ?_, ?_⟩
  · intro t
    refine ⟨2 * t + 3, ?_⟩
    show t ≤ 301 + (2 * t + 1) / 2
    omega
  · intro n
    refine ⟨2 * n + 4, by omega, ?_⟩
    have hf : feedTicks (2 * n + 4) = [.host (.bytes 0 [0x02])] := by simp [feedTicks]
    rw [hf]
    rfl
  · intro n S S' h h' hr
    match n with
    | 0 => cases h'; cases hr
    | 1 => cases h'; cases hr
    | 2 => cases h'; cases hr
    | n + 3 => cases h'; cases hr
  · intro n B h
    match n with
    | 0 => cases h
    | 1 => cases h
    | 2 => cases h
    | n + 3 => cases h

/-- `TempCycleSucceeds`, and with it `FewerThanFiveTicksCannotComplete`: the run exists, and takes nine steps. -/
theorem test_witness_TempCycleSucceeds :
    let lines : List Line := [.host (.bytes 0 [0x02]), .bus 0 (.okWrite 1), .host (.bytes 0 [0x02]), .clock 10,
      .host (.bytes 0 [0x02]), .bus 0 (.okWrite 1), .host (.bytes 0 [0x02]), .bus 0 (.okRead [0x8F, 0x1B, 0x94]),
      .host (.bytes 0 [0x02])]
    let s := one (temp .Idle) (idle false) 100 lines
    Has s 0 (temp .Idle) (idle false) ∧ s.FAULT = false ∧ s.blk = none ∧ (temp .Idle).rs = .Idle ∧
    (idle false).inflight = none ∧ s.script = lines ++ [] ∧
    ∃ t S', reaches s 9 t ∧ t.sensors[0]? = some S' ∧ S'.rs = .Complete :=
  ⟨has_one _ _ _ _ rfl, rfl, rfl, rfl, rfl, rfl, _, _, rfl, rfl, rfl⟩

theorem test_witness_TimersReadAfterWrite (r : ReadState) : MachineInv (one (temp r) (idle false) 100 []) ∧
    (one (temp r) (idle false) 100 []).sensors[0]? = some (temp r) ∧ (temp r).rs = r :=
  ⟨one_sound _ _ _ (Nat.le_refl _) _, rfl, rfl⟩

theorem test_witness_BusCommandsIssueFrames : State.reset.buses[1]? = some Transport.launch ∧ Transport.launch.inflight = none :=
  ⟨rfl, rfl⟩

/-- A write of one byte completing with 0 and with 1; reads of 3 and of 5 bytes completing with none and with all. -/
theorem test_witness_TransportCompletion :
    (one pres (busy (.write 0x40 [0xAC] true)) 0 []).buses[0]? = some (busy (.write 0x40 [0xAC] true)) ∧
    (busy (.write 0x40 [0xAC] true)).inflight = some (.write 0x40 [0xAC] true) ∧ 0 ≤ ([0xAC] : List Byte).length ∧
    1 ≤ ([0xAC] : List Byte).length ∧
    (busy (.read 0x40 0 5 true)).inflight = some (.read 0x40 0 5 true) ∧
    (one pres (busy (.read 0x40 0 5 true)) 0 []).sensors[0]? = some pres ∧ Memory.wf pres.buf = true ∧
    ([] : List Byte).length ≤ 5 ∧ ([1, 2, 3, 4, 5] : List Byte).length ≤ 5 ∧ (idle true).inflight = none :=
  ⟨rfl, rfl, by decide, by decide, rfl, rfl, rfl, by decide, by decide, rfl⟩

theorem test_witness_StepKeepsIdentity : ∃ t, step (one pres (idle false) 0 [.host (.bytes 0 [0x08])]) = .next t := ⟨_, rfl⟩

theorem test_witness_InitBegins : Has (one presP4 (idle false) 0 []) 0 presP4 (idle false) ∧ presP4.initOk = true ∧
    Has (one pres (idle false) 0 []) 0 pres (idle false) ∧ pres.initOk = false ∧ pres.profile = .PRES ∧
    Has (one (temp .Idle) (idle false) 0 []) 0 (temp .Idle) (idle false) ∧ (temp .Idle).initOk = false ∧
    (idle false).inflight = none :=
  ⟨has_one _ _ _ _ rfl, rfl, has_one _ _ _ _ rfl, rfl, rfl, has_one _ _ _ _ rfl, rfl, rfl⟩

/-- The outcomes of a poll: pending at 200 ms, timed out at 201, done, failed. -/
theorem test_witness_polls (tr : Transaction) :
    pollOf (one pres (busy tr) 300 []) pres (busy tr) = .Pending ∧ pollOf (one pres (busy tr) 301 []) pres (busy tr) = .TimedOut ∧
    pollOf (one pres (idle false) 301 []) pres (idle false) = .Done ∧
    pollOf (one pres (idle true) 100 []) pres (idle true) = .Failed := ⟨rfl, rfl, rfl, rfl⟩

/-- `InitMicroSteps`: every phase, with the last word of either profile. -/
theorem test_witness_InitMicroSteps :
    Has (held pres (idle false) 0 ⟨0, .cmdIssue 6, 0⟩) 0 pres (idle false) ∧ (⟨0, .resetWait, 0⟩ : Blocking).phase = .resetWait ∧
    (⟨0, .cmdWait 7, 0⟩ : Blocking).phase = .cmdWait 7 ∧ (⟨0, .cmdIssue 6, 0⟩ : Blocking).phase = .cmdIssue 6 ∧
    (⟨0, .dataIssue 0, 0⟩ : Blocking).phase = .dataIssue 0 ∧ (idle false).inflight = none ∧ 7 < 8 ∧
    ([0x00, 0x01, 0x12, 0x13, 0x14, 0x15, 0x16] : List Byte)[6]? = some 0x16 :=
  ⟨⟨rfl, rfl⟩, rfl, rfl, rfl, rfl, rfl, by decide, rfl⟩

/-- `InitWordStored` and `InitEnds`: the last word but one and the last word of each profile, and both results. -/
theorem test_witness_InitWords :
    let S : Sensor := { pres with buf := [(0, 0x40), (1, 0x17), (2, 0x23)] }
    Has (held S (idle false) 100 ⟨0, .dataWait 5, 0⟩) 0 S (idle false) ∧ 5 + 1 < Profile.PRES.nCal ∧ 6 + 1 = Profile.PRES.nCal ∧
    6 + 1 < Profile.TEMP.nCal ∧ 7 + 1 = Profile.TEMP.nCal ∧
    pollOf (held S (idle false) 100 ⟨0, .dataWait 5, 0⟩) S (idle false) ≠ .Pending ∧
    Memory.read S.buf 1 = some 0x17 ∧ Memory.read S.buf 2 = some 0x23 ∧ Memory.read S.buf 0 = some 0x40 ∧
    pollOf (held pres (idle false) 100 ⟨0, .dataWait 5, 0⟩) pres (idle false) = .Done ∧ Memory.read pres.buf 1 = none ∧
    (true = true ↔ (0 : Int) + (if PollResult.Done = .TimedOut then 0 else (idle false).nbytes) ≠ 0) ∧
    (false = true ↔ (0 : Int) + (if PollResult.TimedOut = .TimedOut then 0 else (idle false).nbytes) ≠ 0) :=
  ⟨⟨rfl, rfl⟩, by decide, by decide, by decide, by decide, by decide, rfl, rfl, rfl, rfl, rfl, by decide, by decide⟩

/-- The four modes. -/
theorem test_witness_DecodedFields : fieldMode 0x52A4 = 0 ∧ fieldMode 0x52A5 = 1 ∧ fieldMode 0x52A6 = 2 ∧ fieldMode 0x52A7 = 3 := by
  decide

/-- Codes 62, 63, and no INIT. -/
theorem test_witness_IsInitResult :
    (one presP4 (idle false) 0 []).sensors[0]? = some presP4 ∧ presP4.cal.fields = some (decodeFields 0 storeP4) ∧
    (decodeFields 0 { storeP4 with w00 := .word 0xFBFF }).equipment ≠ 63 ∧
    (decodeFields 0 { storeP4 with w00 := .word 0xFC00 }).equipment = 63 ∧ pres.cal.fields = none :=
  ⟨rfl, rfl, by decide, by decide, rfl⟩

theorem test_witness_ReadBlockingBegins : Has (one presP4 (idle false) 100 []) 0 presP4 (idle false) ∧
    presP4.profile = .PRES ∧ (idle false).inflight = none := ⟨has_one _ _ _ _ rfl, rfl, rfl⟩

/-- `ReadBlockingPhases` and `ReadBlockingFails`: the delay at 8 and at 9 ms; the reply and the store of P5. -/
theorem test_witness_ReadBlockingPhases :
    let S : Sensor := { presP4 with buf := [(0, 0x40), (1, 0x80), (2, 0x00), (3, 0x5F), (4, 0xA0)] }
    Has (held S (idle false) 108 ⟨0, .measureDelay, 0⟩) 0 S (idle false) ∧ S.tConv = some 100 ∧ 108 < 100 + 9 ∧ 100 + 9 ≤ 109 ∧
    pollOf (held S (idle false) 108 ⟨0, .measureData, 0⟩) S (idle false) = .Done ∧ Memory.read S.buf 0 = some 0x40 ∧
    Memory.read S.buf 1 = some 0x80 ∧ Memory.read S.buf 4 = some 0xA0 ∧ S.cal.fields = some (decodeFields 0 storeP4) ∧
    (decodeFields 0 storeP4).equipment ≠ 63 ∧ S.cal.W.w12 = .word 0x52A5 ∧ S.cal.W.w16 = .word 0x0000 :=
  ⟨⟨rfl, rfl⟩, rfl, by decide, by decide, rfl, rfl, rfl, rfl, rfl, by decide, rfl, rfl⟩

theorem test_witness_ReadBlockingSucceeds :
    let lines : List Line := [.host (.bytes 0 [0x08]), .bus 0 (.okWrite 1), .block, .clock 9, .block,
      .bus 0 (.okRead [0x40, 0x80, 0x00, 0x5F, 0xA0]), .block]
    let s := one presP4 (idle false) 100 lines
    Has s 0 presP4 (idle false) ∧ s.FAULT = false ∧ s.blk = none ∧ presP4.profile = .PRES ∧ (idle false).inflight = none ∧
    s.script = lines ++ [] ∧ ∃ t, reaches s 7 t ∧ t.ret = .tick .Success :=
  ⟨has_one _ _ _ _ rfl, rfl, rfl, rfl, rfl, rfl, _, rfl, rfl⟩

/-- P4. -/
theorem test_witness_InitPresSucceeds :
    let replies : List (Byte × Byte × Byte) := [(0x40, 0x17, 0x23), (0x40, 0xBE, 0xEF), (0x40, 0x52, 0xA5), (0x40, 0xBF, 0x80),
      (0x40, 0x00, 0x00), (0x40, 0x41, 0x20), (0x40, 0x00, 0x00)]
    let lines := Line.host (.bytes 0 [0x06]) :: replies.flatMap (wordLines 0)
    let s := one pres (idle false) 100 lines
    Has s 0 pres (idle false) ∧ s.FAULT = false ∧ s.blk = none ∧ pres.profile = .PRES ∧ pres.initOk = false ∧
    (idle false).inflight = none ∧ s.script = lines ++ [] := ⟨has_one _ _ _ _ rfl, rfl, rfl, rfl, rfl, rfl, rfl⟩

/-- A micro-step of INIT that changes the store, and a sound state whose INIT has returned true. -/
theorem test_witness_CalibrationWrittenOnlyByInit :
    (∃ t, step (held pres (idle false) 100 ⟨0, .dataWait 0, 0⟩) = .next t) ∧
    MachineInv (one { temp .Idle with initOk := true } (idle false) 100 []) ∧
    step (one { temp .Idle with initOk := true } (idle false) 100 []) =
      .next (one { temp .Idle with initOk := true } (idle false) 100 []) := by
  refine ⟨⟨_, rfl⟩, ⟨rfl, ?_, ?_, nofun⟩, rfl⟩
  · intro S hS
    obtain rfl := List.mem_singleton.mp hS
    have h := temp_sound .Idle 100 (Nat.le_refl _)
    exact ⟨h.bus, h.buffer, h.stamps, h.timers, h.idle, h.reading, nofun⟩
  · intro T hT; obtain rfl := List.mem_singleton.mp hT; exact nofun

/-- Each way the reading can change. -/
theorem test_witness_ValueWrittenOnlyByCompletion :
    (∃ t, step (one (temp .WaitData) (idle false) 100 [.host (.bytes 0 [0x02])]) = .next t) ∧
    ∃ t, step (held presP4 (idle false) 100 ⟨0, .measureData, 0⟩) = .next t := ⟨⟨_, rfl⟩, ⟨_, rfl⟩⟩

theorem test_witness_OperationFrame : (∃ t, exec (.advance 0) State.reset = .next t) ∧
    (∃ t, exec (.pMeasure 1 true) State.reset = .next t) ∧ namedBus (.advance 0) ≠ some 1 ∧
    (∀ k S, subject (.advance 0) = some k → State.reset.sensors[k]? = some S → S.bus ≠ 1) := by
  refine ⟨⟨_, rfl⟩, ⟨_, rfl⟩, nofun, ?_⟩
  rintro k S hk hS
  cases hk
  cases hS
  nofun

theorem test_witness_TimerDifferenceExact : (one pres (idle false) 105 []).CLK = 100 + 5 ∧ 4294967301 = 4294967290 + 11 ∧
    11 < 2 ^ 32 ∧ 255 < 2 ^ 8 := by decide

theorem test_witness_CompensationIntegerSteps : (0x8F1B00 : U24).toNat / 256 = (0x8F1BFF : U24).toNat / 256 ∧
    (0x0000 : U16).toNat / 16 = (0x000F : U16).toNat / 16 := by decide

theorem test_witness_ReferenceFormulas : (0x000F : U16).toNat < 16 ∧ (1029 : Rat) ≠ 0 := ⟨by decide, by norm_num⟩

/-- `BlockingReturns`: READ_BLOCKING begins, the clock passes its bound, the block sees that and returns, and the clock runs on. -/
def feedBlock : Nat → List Line
  | 0 => [.host (.bytes 0 [0x08])]
  | 1 => [.clock 201]
  | 2 => []
  | _ => [.clock 1]

/-- That run. -/
def runBlock : Nat → State
  | 0 => one pres (idle false) 100 []
  | 1 => { held pres (issued 0 (.write 0x40 [0xAC] true)) 100 ⟨0, .measureWait, 0⟩ with draws := 1 }
  | 2 => { held pres (issued 0 (.write 0x40 [0xAC] true)) 301 ⟨0, .measureWait, 0⟩ with draws := 1 }
  | n + 3 => { one pres (issued 0 (.write 0x40 [0xAC] true)) (301 + n) [] with
      diag := [.timeoutSeen], ret := .tick .Failure, draws := 1 }

theorem test_witness_BlockingReturns : IsRun runBlock feedBlock ∧ MachineInv (runBlock 0) ∧ ClockAdvances runBlock ∧
    LoopKeepsStepping runBlock feedBlock ∧ (runBlock 1).blk = some ⟨0, .measureWait, 0⟩ := by
  refine ⟨?_, ⟨rfl, ?_, ?_, nofun⟩, ?_, ?_, rfl⟩
  · intro n
    match n with
    | 0 => rfl
    | 1 => rfl
    | 2 => rfl
    | n + 3 => rfl
  · intro S hS; obtain rfl := List.mem_singleton.mp hS; exact pres_sound
  · intro T hT; obtain rfl := List.mem_singleton.mp hT; exact nofun
  · intro t
    exact ⟨t + 3, Nat.le_add_left t 301⟩
  · intro n
    exact ⟨n + 3, Nat.le_add_right n 3, .inl rfl⟩

end Sys2Proof.Tests
end

section
/-! SUPPORT. What the updates the step is made of leave of a state: the list of sensors they write, and the part of the state
that only the clock's line can move. -/

namespace Sys2Proof.Proofs

open Sys2Proof.Machine Sys2Proof.Laws

@[simp] theorem setPc_sensors (k : Nat) (r : ReadState) (s : State) :
    (setPc k r s).sensors = s.sensors.modify k fun S => { S with rs := r } := rfl

@[simp] theorem stampOp_sensors (k : Nat) (s : State) :
    (stampOp k s).sensors = s.sensors.modify k fun S => { S with tOp := some s.CLK } := rfl

@[simp] theorem stampConv_sensors (k : Nat) (s : State) :
    (stampConv k s).sensors = s.sensors.modify k fun S => { S with tConv := some s.CLK } := rfl

@[simp] theorem raiseError_sensors (k : Nat) (e : DiagEvent) (s : State) :
    (raiseError k e s).sensors = s.sensors.modify k fun S => { S with rs := .Error } := rfl

@[simp] theorem returnToIdle_sensors (k : Nat) (s : State) :
    (returnToIdle k s).sensors = s.sensors.modify k fun S => { S with rs := .Idle } := rfl

@[simp] theorem atPhase_sensors (B : Blocking) (ph : Phase) (s : State) : (atPhase B ph s).sensors = s.sensors := rfl

@[simp] theorem finish_sensors (r : Result) (s : State) : (finish r s).sensors = s.sensors := rfl

@[simp] theorem waitDiag_sensors (r : PollResult) (T : Transport) (s : State) : (waitDiag r T s).sensors = s.sensors := by
  cases r <;> rfl

/-- The clock, the number of buses and the fault mark. -/
def fixedPart (s : State) : Nat × Nat × Bool := (s.CLK, s.buses.length, s.FAULT)

theorem fixedPart_eq_iff {s t : State} :
    fixedPart t = fixedPart s ↔ t.CLK = s.CLK ∧ t.buses.length = s.buses.length ∧ t.FAULT = s.FAULT := by
  simp [fixedPart]

@[simp] theorem fixedPart_withScript (s : State) (l : List Line) : fixedPart { s with script := l } = fixedPart s := rfl

@[simp] theorem fixedPart_updSensor (k : Nat) (f : Sensor → Sensor) (s : State) :
    fixedPart (updSensor k f s) = fixedPart s := rfl

@[simp] theorem fixedPart_setBus (b : Nat) (T : Transport) (s : State) : fixedPart (setBus b T s) = fixedPart s := by
  simp [fixedPart]

@[simp] theorem fixedPart_setRet (r : Result) (s : State) : fixedPart (setRet r s) = fixedPart s := rfl

@[simp] theorem fixedPart_setBlk (B : Option Blocking) (s : State) : fixedPart (setBlk B s) = fixedPart s := rfl

@[simp] theorem fixedPart_nextDraw (s : State) : fixedPart (nextDraw s) = fixedPart s := rfl

@[simp] theorem fixedPart_setFluidDensity (v : F32) (s : State) : fixedPart (setFluidDensity v s) = fixedPart s := rfl

@[simp] theorem fixedPart_setPc (k : Nat) (r : ReadState) (s : State) : fixedPart (setPc k r s) = fixedPart s := rfl

@[simp] theorem fixedPart_stampOp (k : Nat) (s : State) : fixedPart (stampOp k s) = fixedPart s := rfl

@[simp] theorem fixedPart_stampConv (k : Nat) (s : State) : fixedPart (stampConv k s) = fixedPart s := rfl

@[simp] theorem fixedPart_raiseError (k : Nat) (e : DiagEvent) (s : State) : fixedPart (raiseError k e s) = fixedPart s := rfl

@[simp] theorem fixedPart_returnToIdle (k : Nat) (s : State) : fixedPart (returnToIdle k s) = fixedPart s := rfl

@[simp] theorem fixedPart_atPhase (B : Blocking) (ph : Phase) (s : State) : fixedPart (atPhase B ph s) = fixedPart s := rfl

@[simp] theorem fixedPart_finish (r : Result) (s : State) : fixedPart (finish r s) = fixedPart s := rfl

@[simp] theorem fixedPart_waitDiag (r : PollResult) (T : Transport) (s : State) : fixedPart (waitDiag r T s) = fixedPart s := by
  cases r <;> rfl

@[simp] theorem fixedPart_initEnd (B : Blocking) (s : State) : fixedPart (initEnd B s) = fixedPart s := rfl

@[simp] theorem fixedPart_wordEnd (B : Blocking) (S : Sensor) (T : Transport) (w : Nat) (r : PollResult) (s : State) :
    fixedPart (wordEnd B S T w r s) = fixedPart s := by
  unfold wordEnd
  split <;> simp

/-- A completion leaves the clock, the number of buses and the mark. -/
theorem complete_fixedPart {b : Nat} {c : Completion} {s t : State} (h : complete b c s = .next t) :
    fixedPart t = fixedPart s := by
  obtain ⟨T, tr, -, -, h⟩ := complete_next h
  obtain ⟨_, _, _, _, _, _, _, rfl⟩ | ⟨_, _, _, _, _, _, _, _, _, rfl⟩ | ⟨_, _, _, _, _, _, _, _, rfl⟩ |
    ⟨_, _, _, _, _, _, _, _, _, rfl⟩ := h
  all_goals simp

/-- So does a tick. -/
theorem advanceWith_fixedPart {report : ReadState → Result} {k : Nat} {s t : State} (h : advanceWith report k s = .next t) :
    fixedPart t = fixedPart s := by
  obtain ⟨S, T, next, u, -, -, -, rfl, hu⟩ := advanceWith_next h
  obtain ⟨_, _, rfl⟩ | ⟨_, _, _, rfl⟩ | ⟨_, _, _, rfl⟩ | ⟨_, _, _, _, rfl⟩ | ⟨_, _, _, _, rfl⟩ | ⟨_, _, _, rfl⟩ |
    ⟨_, _, _, rfl⟩ := hu
  all_goals simp

/-- So does every operation. -/
theorem exec_fixedPart {i : Instr} {s t : State} (hw : i.wellFormed = true) (h : exec i s = .next t) :
    fixedPart t = fixedPart s := by
  obtain ⟨r, rfl⟩ | ⟨k, r, -, rfl⟩ | ⟨k, S, -, -, -, rfl⟩ | ⟨k, report, -, h⟩ | ⟨k, -, h⟩ | ⟨k, -, h⟩ | ⟨b, f, j, -, -, h⟩ :=
    exec_next hw h
  · simp
  · simp
  · simp
  · exact advanceWith_fixedPart h
  · obtain ⟨S, T, -, -, -, -, ⟨-, rfl⟩ | ⟨-, rfl⟩⟩ := execInit_next h <;> simp
  · obtain ⟨S, T, -, -, -, -, rfl⟩ := execReadBlocking_next h; simp
  · obtain ⟨T, -, -, rfl⟩ := issueFrame_next h; simp

/-- So does a micro-step. -/
theorem microStep_fixedPart {B : Blocking} {s t : State} (h : microStep B s = .next t) : fixedPart t = fixedPart s := by
  obtain ⟨S, T, -, -, h⟩ := microStep_next h
  obtain rfl | ⟨_, _, rfl⟩ | ⟨_, rfl⟩ | ⟨_, _, _, rfl⟩ | ⟨_, _, _, rfl⟩ | ⟨_, _, rfl⟩ | ⟨_, _, _, rfl⟩ | ⟨_, _, _, rfl⟩ |
    ⟨_, _, rfl⟩ | ⟨_, _, rfl⟩ | ⟨_, _, _, rfl⟩ | ⟨_, _, rfl⟩ := h
  all_goals simp

/-- A derived quantity is returned, and nothing else changes. -/
theorem deriveQuantity_next {k : Nat} {q : Derived} {s t : State} (h : deriveQuantity k q s = .next t) :
    ∃ r, t = setRet r s := by
  obtain ⟨S, -, -, h⟩ := onSensor_next h
  split at h
  · cases h
  · cases h
  · cases h; exact ⟨_, rfl⟩

/-- A construction appends the new sensor. -/
theorem constructSensor_next {p : Profile} {b : Nat} {s t : State} (h : constructSensor p b s = .next t) :
    t = { s with sensors := s.sensors ++ [Sensor.construct p b] } := by
  obtain ⟨T, -, h⟩ := onBus_next h
  cases h
  rfl

/-- Only the clock's line moves the clock, and nothing the number of buses or the mark. -/
theorem step_fixedPart {s t : State} (h : step s = .next t) :
    fixedPart t = fixedPart s ∨ ∃ d, fixedPart t = (s.CLK + d, s.buses.length, s.FAULT) := by
  obtain ⟨-, rest, rfl | ⟨d, rfl⟩ | ⟨b, c, h⟩ | ⟨i, -, -, hw, h⟩ | ⟨p, b, -, h⟩ | ⟨v, rfl⟩ | ⟨k, q, h⟩ | ⟨B, -, h⟩⟩ := step_next h
  · exact .inl rfl
  · exact .inr ⟨d, rfl⟩
  · exact .inl ((complete_fixedPart h).trans (fixedPart_withScript s rest))
  · exact .inl ((exec_fixedPart hw h).trans (fixedPart_withScript s rest))
  · rw [constructSensor_next h]; exact .inl rfl
  · exact .inl rfl
  · obtain ⟨r, rfl⟩ := deriveQuantity_next h; exact .inl rfl
  · exact .inl ((microStep_fixedPart h).trans (fixedPart_withScript s rest))

end Sys2Proof.Proofs
end

section
/-! SUPPORT. What one step can do to one sensor, said once for all agents: `step_changes`. -/

namespace Sys2Proof.Proofs

open Sys2Proof.Machine Sys2Proof.Laws Sys2Proof.Safety

/-- What a step from `s` to `t` can make of sensor `k`, which is `S` in `s`. -/
inductive Change (k : Nat) (s t : State) (S : Sensor) : Sensor → Prop
  /-- nothing -/
  | kept : Change k s t S S
  /-- a blocking operation stamps a timer -/
  | stamped (tOp tConv : Option Nat) : Change k s t S { S with tOp := tOp, tConv := tConv }
  /-- a transport completes a read into its buffer -/
  | filled (m : Memory) : Change k s t S { S with buf := m }
  /-- RESET, or a tick that decodes nothing -/
  | moved (r : ReadState) (tOp tConv : Option Nat) (hp : S.profile = .TEMP) :
      Change k s t S { S with rs := r, tOp := tOp, tConv := tConv }
  /-- the tick from WaitData to Complete -/
  | completed (T : Transport) (hT : s.buses[S.bus]? = some T) (hpoll : pollOf s S T = .Done) (hp : S.profile = .TEMP)
      (htick : ticks k s = true) (hrs : S.rs = .WaitData) : Change k s t S { decodeStore s.draws S with rs := .Complete }
  /-- the last wait of READ_BLOCKING ends well -/
  | measured (T : Transport) (hT : s.buses[S.bus]? = some T) (hpoll : pollOf s S T = .Done) (B : Blocking)
      (hB : s.blk = some B) (hk : B.sensor = k) (hph : B.phase = .measureData) (hret : t.ret = .tick .Success) :
      Change k s t S (measureStore s.draws S)
  /-- the read of a calibration word ends -/
  | word (c : Cal) (ok : Bool) (B : Blocking) (w : Nat) (hB : s.blk = some B) (hk : B.sensor = k)
      (hph : B.phase = .dataWait w) : Change k s t S { S with cal := c, initOk := ok }

/-- Every sensor of `s` is still in `t`, and has undergone a `Change`. -/
def Changes (s t : State) : Prop :=
  ∀ (k : Nat) (S : Sensor), s.sensors[k]? = some S → ∃ S', t.sensors[k]? = some S' ∧ Change k s t S S'

/-- A step that leaves the sensors alone. -/
theorem Changes.of_sensors_eq {s t : State} (h : t.sensors = s.sensors) : Changes s t :=
  fun _ S hS => ⟨S, by rw [h, hS], .kept⟩

/-- A step that writes one sensor. -/
theorem Changes.of_modify {s t : State} {j : Nat} {f : Sensor → Sensor} (h : t.sensors = s.sensors.modify j f)
    (hf : ∀ S, s.sensors[j]? = some S → Change j s t S (f S)) : Changes s t := by
  intro k S hS
  by_cases hk : j = k
  · subst hk
    exact ⟨f S, by simp [h, hS], hf S hS⟩
  · exact ⟨S, by simp [h, hk, hS], .kept⟩

/-- A transport's completion writes at most the buffer a read names. -/
theorem complete_changes {b : Nat} {c : Completion} {s t : State} {rest : List Line}
    (h : complete b c { s with script := rest } = .next t) : Changes s t := by
  obtain ⟨T, tr, -, -, h⟩ := complete_next h
  obtain ⟨_, _, _, _, _, _, _, rfl⟩ | ⟨_, _, _, _, _, _, _, _, _, rfl⟩ | ⟨_, _, _, _, _, _, _, _, rfl⟩ |
    ⟨_, _, _, _, _, _, _, _, _, rfl⟩ := h
  · exact .of_sensors_eq rfl
  · exact .of_modify rfl fun S _ => .filled _
  · exact .of_sensors_eq rfl
  · exact .of_modify rfl fun S _ => .filled _

/-- A tick moves its sensor, and decodes only in WaitData after a clean finish. -/
theorem advanceWith_changes {report : ReadState → Result} {k : Nat} {s t : State} {rest : List Line} (hk : ticks k s = true)
    (h : advanceWith report k { s with script := rest } = .next t) : Changes s t := by
  obtain ⟨S, T, next, u, hS, hp, hT, rfl, hcases⟩ := advanceWith_next h
  -- it is enough to say what the update of the sensor makes of `S`
  have writes : ∀ f : Sensor → Sensor, u.sensors = s.sensors.modify k f →
      Change k s (setRet (report next) (setPc k next u)) S { f S with rs := next } →
      Changes s (setRet (report next) (setPc k next u)) := by
    intro f hu hc
    refine .of_modify (j := k) (f := (fun S => { S with rs := next }) ∘ f) ?_ fun S' hS' => ?_
    · simp [hu, List.modify_modify_eq]
    obtain rfl : S = S' := Option.some.inj (hS.symm.trans hS')
    exact hc
  obtain ⟨_, _, rfl⟩ | ⟨_, _, _, rfl⟩ | ⟨_, _, _, rfl⟩ | ⟨_, _, _, _, rfl⟩ | ⟨_, _, _, _, rfl⟩ | ⟨hrs, hq, rfl, rfl⟩ |
    ⟨_, _, _, rfl⟩ := hcases
  · exact .of_modify rfl fun S' hS' => .moved _ _ _ (by cases hS.symm.trans hS'; exact hp)
  · exact writes _ rfl (.moved _ _ _ hp)
  · exact writes _ rfl (.moved _ _ _ hp)
  · exact writes _ rfl (.moved _ _ _ hp)
  · exact writes _ rfl (.moved _ _ _ hp)
  · exact writes _ rfl (.completed T hT hq hp hk hrs)
  · exact writes _ rfl (.moved _ _ _ hp)

/-- An operation changes only its own sensor: it stamps it, moves it, or is a tick of it. -/
theorem exec_changes {i : Instr} {s t : State} {rest : List Line} (ht : taken s = some i) (hw : i.wellFormed = true)
    (h : exec i { s with script := rest } = .next t) : Changes s t := by
  obtain ⟨r, rfl⟩ | ⟨k, r, -, rfl⟩ | ⟨k, S, -, hS, hp, rfl⟩ | ⟨k, report, hi, h⟩ | ⟨k, -, h⟩ | ⟨k, -, h⟩ |
    ⟨b, f, j, -, -, h⟩ := exec_next hw h
  · exact .of_sensors_eq rfl
  · exact .of_sensors_eq rfl
  · exact .of_modify rfl fun S' hS' => .moved _ _ _ (by cases hS.symm.trans hS'; exact hp)
  · exact advanceWith_changes (by obtain rfl | rfl := hi <;> simp [ticks, ht]) h
  · obtain ⟨S, T, -, -, -, -, ⟨-, rfl⟩ | ⟨-, rfl⟩⟩ := execInit_next h
    · exact .of_modify rfl fun S _ => .stamped _ _
    · exact .of_modify rfl fun S _ => .stamped _ _
  · obtain ⟨S, T, -, -, -, -, rfl⟩ := execReadBlocking_next h
    exact .of_modify rfl fun S _ => .stamped _ _
  · obtain ⟨T, -, -, rfl⟩ := issueFrame_next h
    exact .of_sensors_eq rfl

/-- Decoding the fields of the store changes the store only. -/
theorem decodeStoreFields_eq (draw : Nat) (S : Sensor) :
    decodeStoreFields draw S = { S with cal := (decodeStoreFields draw S).cal } := by
  unfold decodeStoreFields
  split <;> rfl

/-- The end of INIT writes the sensor's store and its success bit only. -/
theorem initEnd_sensors (B : Blocking) (s : State) :
    (initEnd B s).sensors = s.sensors.modify B.sensor fun S =>
      { S with cal := (decodeStoreFields s.draws S).cal, initOk := decide (B.total ≠ 0) } := by
  simp only [initEnd, finish_sensors, nextDraw_sensors, updSensor_sensors, emitDiag_sensors, List.modify_modify_eq]
  congr 1
  funext S
  rw [Function.comp_apply, decodeStoreFields_eq]

/-- The end of a calibration word's read writes the sensor's store, and its success bit at the last word. -/
theorem wordEnd_sensors (B : Blocking) (S : Sensor) (T : Transport) (w : Nat) (r : PollResult) (s : State) :
    ∃ (c : Sensor → Cal) (ok : Sensor → Bool), (wordEnd B S T w r s).sensors =
      s.sensors.modify B.sensor fun S' => { S' with cal := c S', initOk := ok S' } := by
  unfold wordEnd
  split
  · exact ⟨_, Sensor.initOk, by simp only [atPhase_sensors, nextDraw_sensors, waitDiag_sensors]; rfl⟩
  · exact ⟨_, _, by
      simp only [initEnd_sensors, nextDraw_sensors, waitDiag_sensors, updSensor_sensors, List.modify_modify_eq]; rfl⟩

/-- A micro-step stamps its sensor, stores a calibration word in it, or stores its reading. -/
theorem microStep_changes {B : Blocking} {s t : State} {rest : List Line} (hB : s.blk = some B)
    (h : microStep B { s with script := rest } = .next t) : Changes s t := by
  obtain ⟨S, T, hS, hT, h⟩ := microStep_next h
  obtain rfl | ⟨_, _, rfl⟩ | ⟨_, rfl⟩ | ⟨_, _, _, rfl⟩ | ⟨_, _, _, rfl⟩ | ⟨_, _, rfl⟩ | ⟨_, _, _, rfl⟩ | ⟨w, hph, _, rfl⟩ |
    ⟨_, _, rfl⟩ | ⟨_, _, rfl⟩ | ⟨_, _, _, rfl⟩ | ⟨hph, hq, rfl⟩ := h
  · exact .of_sensors_eq rfl
  · exact .of_modify (by simp; rfl) fun S _ => .stamped _ _
  · exact .of_sensors_eq rfl
  · exact .of_modify rfl fun S _ => .stamped _ _
  · exact .of_modify (by simp; rfl) fun S _ => .stamped _ _
  · exact .of_sensors_eq rfl
  · exact .of_modify rfl fun S _ => .stamped _ _
  · obtain ⟨c, ok, hc⟩ := wordEnd_sensors B S T w (pollOf { s with script := rest } S T) { s with script := rest }
    exact .of_modify hc fun S' _ => .word _ _ B w hB rfl hph
  · exact .of_modify rfl fun S _ => .stamped _ _
  · exact .of_sensors_eq (by simp)
  · exact .of_modify rfl fun S _ => .stamped _ _
  · refine .of_modify rfl fun S' hS' => ?_
    obtain rfl : S = S' := Option.some.inj (hS.symm.trans hS')
    exact .measured T hT hq B hB rfl hph rfl

/-- Every step keeps every sensor in its place and makes of it one of the seven things `Change` lists. -/
theorem step_changes {s t : State} (h : step s = .next t) : Changes s t := by
  obtain ⟨-, rest, rfl | ⟨d, rfl⟩ | ⟨b, c, h⟩ | ⟨i, -, ht, hw, h⟩ | ⟨p, b, -, h⟩ | ⟨v, rfl⟩ | ⟨k, q, h⟩ | ⟨B, hB, h⟩⟩ :=
    step_next h
  · exact .of_sensors_eq rfl
  · exact .of_sensors_eq rfl
  · exact complete_changes h
  · exact exec_changes ht hw h
  · rw [constructSensor_next h]
    exact fun k S hS => ⟨S, by rw [List.getElem?_append_left (List.getElem?_eq_some_iff.mp hS).1, hS], .kept⟩
  · exact .of_sensors_eq rfl
  · obtain ⟨r, rfl⟩ := deriveQuantity_next h; exact .of_sensors_eq rfl
  · exact microStep_changes hB h

/-- What a step makes of a sensor both states have. -/
theorem step_change {k : Nat} {s t : State} {S S' : Sensor} (h : step s = .next t) (hS : s.sensors[k]? = some S)
    (hS' : t.sensors[k]? = some S') : Change k s t S S' := by
  obtain ⟨S'', hS'', hc⟩ := step_changes h k S hS
  obtain rfl : S' = S'' := Option.some.inj (hS'.symm.trans hS'')
  exact hc

end Sys2Proof.Proofs
end

section
/-! PROOFS. What a step keeps of a sensor and of the machine. -/

namespace Sys2Proof.Proofs

open Sys2Proof.Machine Sys2Proof.Laws Sys2Proof.Safety

/-- Only the end of a calibration word's read writes the store or the success bit. -/
theorem Change.cal_kept {k : Nat} {s t : State} {S S' : Sensor} (h : Change k s t S S') :
    (S'.cal = S.cal ∧ S'.initOk = S.initOk) ∨ ∃ B w, s.blk = some B ∧ B.sensor = k ∧ B.phase = .dataWait w := by
  cases h with
  | kept | stamped | filled | moved | completed | measured => exact .inl ⟨rfl, rfl⟩
  | word c ok B w hB hk hph => exact .inr ⟨B, w, hB, hk, hph⟩

/-- In a sound state no INIT waits for a word of a sensor whose INIT succeeded. -/
theorem initOk_of_dataWait {s : State} {S : Sensor} {B : Blocking} {w : Nat} (hs : MachineInv s) (hB : s.blk = some B)
    (hph : B.phase = .dataWait w) (hS : s.sensors[B.sensor]? = some S) : S.initOk = false := by
  obtain ⟨S', hS', hsound⟩ := hs.blocking B hB
  obtain rfl : S = S' := Option.some.inj (hS.symm.trans hS')
  rw [hph] at hsound
  obtain ⟨-, hok, -⟩ := hsound
  exact hok

/-- Settles O54: of all that a step can make of a sensor, only the end of a calibration word's read writes the store; and in
a sound state that phase belongs to a sensor whose INIT has not succeeded. -/
theorem calibrationWrittenOnlyByInit : Obligations.CalibrationWrittenOnlyByInit := by
  intro k s t S S' h hS hS'
  have hc := (step_change h hS hS').cal_kept
  refine ⟨hc, fun hs hok => ?_⟩
  obtain ⟨hcal, hinit⟩ | ⟨B, w, hB, rfl, hph⟩ := hc
  · exact ⟨hcal, hinit.trans hok⟩
  · rw [initOk_of_dataWait hs hB hph hS] at hok
    cases hok

/-- A poll that ends well saw a transport that finished without error. -/
theorem pollOf_eq_done_iff {s : State} {S : Sensor} {T : Transport} :
    pollOf s S T = .Done ↔ T.finished = true ∧ T.error = false := by
  unfold pollOf poll
  repeat' split
  all_goals simp_all

/-- Settles O55: of all that a step can make of a sensor, only the tick from WaitData to Complete and the end of
READ_BLOCKING's last wait write the reading, and both saw a poll that ended well. -/
theorem valueWrittenOnlyByCompletion : Obligations.ValueWrittenOnlyByCompletion := by
  intro k s t S S' h hS hS'
  cases step_change h hS hS' with
  | kept | stamped | filled | moved | word => exact .inl rfl
  | completed T hT hpoll hp htick hrs =>
    obtain ⟨hfin, herr⟩ := pollOf_eq_done_iff.mp hpoll
    exact .inr ⟨T, hT, hfin, herr, .inl ⟨htick, hrs, rfl⟩⟩
  | measured T hT hpoll B hB hk hph hret =>
    obtain ⟨hfin, herr⟩ := pollOf_eq_done_iff.mp hpoll
    exact .inr ⟨T, hT, hfin, herr, .inr ⟨B, hB, hk, hph, hret⟩⟩

/-- No step changes the profile or the bus of a sensor, or the pc of a PRES sensor. -/
theorem Change.identity {k : Nat} {s t : State} {S S' : Sensor} (h : Change k s t S S') :
    S'.profile = S.profile ∧ S'.bus = S.bus ∧ (S.profile = .PRES → S'.rs = S.rs) := by
  cases h with
  | kept | stamped | filled | measured | word => exact ⟨rfl, rfl, fun _ => rfl⟩
  | moved r tOp tConv hp => exact ⟨rfl, rfl, fun hq => by rw [hp] at hq; cases hq⟩
  | completed T hT hpoll hp => exact ⟨rfl, rfl, fun hq => by rw [hp] at hq; cases hq⟩

/-- Settles O42: the clock, the buses and the mark by `step_fixedPart`, the sensors by what a step can make of one. -/
theorem stepKeepsIdentity : Obligations.StepKeepsIdentity := by
  intro s t h
  have hfixed : s.CLK ≤ t.CLK ∧ t.buses.length = s.buses.length ∧ t.FAULT = s.FAULT := by
    obtain hf | ⟨d, hf⟩ := step_fixedPart h
    · obtain ⟨hclk, hrest⟩ := fixedPart_eq_iff.mp hf
      exact ⟨hclk.ge, hrest⟩
    · obtain ⟨hclk, hlen, hmark⟩ := by simpa [fixedPart] using hf
      exact ⟨by omega, hlen, hmark⟩
  obtain ⟨hclk, hlen, hmark⟩ := hfixed
  refine ⟨hclk, hlen, hmark, fun k S hS => ?_⟩
  obtain ⟨S', hS', hc⟩ := step_changes h k S hS
  exact ⟨S', hS', hc.identity⟩

end Sys2Proof.Proofs
end

section
/-! PROOFS. The launched state, and the lines of the other agents. -/

namespace Sys2Proof.Proofs

open Sys2Proof.Machine Sys2Proof.Laws Sys2Proof.Safety

/-- The sensors of a launch are new ones. -/
theorem mem_launch_sensors {platform : List (Profile × Nat)} {n : Nat} {S : Sensor} :
    S ∈ (State.launch platform n).sensors ↔ ∃ p b, (p, b) ∈ platform ∧ S = Sensor.construct p b := by
  simp [State.launch, eq_comm]

/-- The transports of a launch carry nothing. -/
theorem launch_bus_inflight {platform : List (Profile × Nat)} {n : Nat} {T : Transport}
    (h : T ∈ (State.launch platform n).buses) : T.inflight = none := by
  rw [List.eq_of_mem_replicate h]
  rfl

/-- Every word of a new sensor's store is unwritten. -/
theorem unwritten_words {w : CalWord} (h : w ∈ Cal.unwritten.C) : w = .unwritten :=
  (Vector.mem_replicate.mp h).2

/-- The default density is 1029 kg/m³ (10_state R41). -/
theorem f32Value_defaultDensity : f32Value Config.defaultDensity = some 1029 := by
  simp [f32Value, Config.defaultDensity]
  norm_num

/-- A construction on a bus that exists. -/
theorem constructSensor_of {p : Profile} {b : Nat} {s : State} {T : Transport} (hT : s.buses[b]? = some T) :
    constructSensor p b s = .next { s with sensors := s.sensors ++ [Sensor.construct p b] } :=
  onBus_of _ hT

/-- Settles O1: a launch makes new sensors and idle transports, and a construction appends one such sensor. -/
theorem resetState : Obligations.ResetState := by
  refine ⟨fun platform n => ⟨?_, ?_, ?_, fun T => launch_bus_inflight, f32Value_defaultDensity, rfl, rfl⟩, rfl, ?_⟩
  · simp [State.launch, Sensor.construct, Function.comp_def]
  · simp [State.launch]
  · intro S hS
    obtain ⟨p, b, -, rfl⟩ := mem_launch_sensors.mp hS
    exact ⟨rfl, rfl, rfl, fun _ => rfl, rfl, rfl, rfl, fun w => unwritten_words, rfl, rfl, rfl⟩
  · intro s p b T hT
    exact ⟨Sensor.construct p b, constructSensor_of hT, rfl⟩

/-- A new sensor on an existing bus is sound at any time. -/
theorem construct_sound (p : Profile) {b n : Nat} (now : Nat) (hb : b < n) : SensorSound n now (Sensor.construct p b) where
  bus := hb
  buffer := construct_wf p b
  stamps := ⟨nofun, nofun⟩
  timers := ⟨by simp [Sensor.construct], nofun⟩
  idle := fun _ => rfl
  reading := trivial
  fields := nofun

/-- A launch whose sensors sit on existing buses meets the machine invariant. -/
theorem launch_machineInv {platform : List (Profile × Nat)} {n : Nat} (h : ∀ pb ∈ platform, pb.2 < n) :
    MachineInv (State.launch platform n) where
  unmarked := rfl
  sensors := by
    intro S hS
    obtain ⟨p, b, hpb, rfl⟩ := mem_launch_sensors.mp hS
    exact construct_sound p _ (by simpa [State.launch] using h (p, b) hpb)
  buses := by
    intro T hT t ht
    rw [launch_bus_inflight hT] at ht
    cases ht
  blocking := nofun

/-- Settles O2: the platform of log 1 puts its two sensors on its two buses. -/
theorem resetMeetsMachineInv : Obligations.ResetMeetsMachineInv :=
  launch_machineInv (by decide)

/-- The documented conversion factors (43_compensation R255). -/
theorem f32Value_factors :
    f32Value Config.factorMillibar = some 1 ∧ f32Value Config.factorPascal = some 100 ∧
      f32Value Config.factorBar = some (8589935 / 2 ^ 33) := by
  refine ⟨?_, ?_, ?_⟩
  · simp [f32Value, Config.factorMillibar]; norm_num
  · simp [f32Value, Config.factorPascal]; norm_num
  · simp [f32Value, Config.factorBar]

/-- A step where nothing blocks takes the line at the head of the script. -/
theorem step_takeLine {s : State} {l : Line} {rest : List Line} (hF : s.FAULT = false) (hb : s.blk = none)
    (hs : s.script = l :: rest) : step s = takeLine l rest s := by
  simp [step, runScript, hF, hb, hs]

/-- A derived quantity of an unwritten reading faults. -/
theorem deriveQuantity_unwritten {k : Nat} {q : Derived} {s : State} {S : Sensor} (hS : s.sensors[k]? = some S)
    (hp : S.profile = .PRES) (hv : S.val = none) : deriveQuantity k q s = .fault .unwrittenValue := by
  rw [deriveQuantity, onSensor_of _ hS (by rw [hp]; rfl), hv]

/-- A derived quantity of a written reading. -/
theorem deriveQuantity_of {k : Nat} {q : Derived} {s : State} {S : Sensor} {pBar tC : FLOAT} (hS : s.sensors[k]? = some S)
    (hp : S.profile = .PRES) (hv : S.val = some (.pres pBar tC)) :
    deriveQuantity k q s = .next (setRet (.float (derivedOf q s.fluidDensity pBar)) s) := by
  rw [deriveQuantity, onSensor_of _ hS (by rw [hp]; rfl), hv]

/-- A line that asks for a derived quantity of a written reading. -/
theorem step_derive {s : State} {rest : List Line} {k : Nat} {S : Sensor} {pBar tC : FLOAT} (hF : s.FAULT = false)
    (hb : s.blk = none) (hS : s.sensors[k]? = some S) (hp : S.profile = .PRES) (hv : S.val = some (.pres pBar tC))
    (q : Derived) (hs : s.script = .derive k q :: rest) :
    step s = .next { s with ret := .float (derivedOf q s.fluidDensity pBar), script := rest } :=
  (step_takeLine hF hb hs).trans (deriveQuantity_of (s := { s with script := rest }) hS hp hv)

/-- A line that constructs a sensor. -/
theorem step_construct {s : State} {rest : List Line} {p : Profile} {b : Nat} (hF : s.FAULT = false) (hb : s.blk = none)
    (hs : s.script = .construct p b :: rest) :
    (s.buses[b]? = none → step s = .refused .noSuchBus) ∧
    (s.buses[b]? ≠ none → step s = .next { s with sensors := s.sensors ++ [Sensor.construct p b], script := rest }) := by
  rw [step_takeLine hF hb hs]
  refine ⟨fun hn => ?_, fun hn => ?_⟩
  · simp [takeLine, constructSensor, onBus, hn]
  · obtain ⟨T, hT⟩ := Option.ne_none_iff_exists'.mp hn
    exact constructSensor_of (s := { s with script := rest }) hT

/-- Settles O10: each line by what `takeLine` does with it. -/
theorem linesOfOtherAgents : Obligations.LinesOfOtherAgents := by
  refine ⟨fun s hF => by simp [step, hF], ?_, fun s rest hF hb => ?_⟩
  · obtain ⟨hmbar, hpa, hbar⟩ := f32Value_factors
    exact ⟨hmbar, hpa, _, hbar, by norm_num [abs_le]⟩
  · refine ⟨fun hs => by simp [step, runScript, hF, hb, hs], fun d => step_takeLine hF hb, fun b c => step_takeLine hF hb,
      step_takeLine hF hb, fun p b hs => ?_, fun v => step_takeLine hF hb, fun k q S hs hS hp hv => ?_,
      fun k S P_bar tC hS hp hv => ?_⟩
    · obtain ⟨hrefused, hnext⟩ := step_construct hF hb hs
      exact ⟨hrefused, fun hn => ⟨Sensor.construct p b, rfl, hnext hn⟩⟩
    · exact (step_takeLine hF hb hs).trans (deriveQuantity_unwritten (s := { s with script := rest }) hS hp hv)
    · have hderive := step_derive (rest := rest) hF hb hS hp hv
      exact ⟨fun factor => hderive _, hderive _, hderive _, hderive _⟩

end Sys2Proof.Proofs
end

section
/-! PROOFS. What a completion leaves of a transport and of a buffer (20_memory R68, R70, R74). -/

namespace Sys2Proof.Proofs

open Sys2Proof.Machine Sys2Proof.Laws Sys2Proof.Safety

/-- A cell past the buffer holds no value. -/
theorem read_above {low : Nat} (m : Memory) (a : Nat) (hm : Memory.risingFrom low m = true) (ha : Config.bufSize ≤ a) :
    Memory.read m a = none := by
  induction m generalizing low with
  | nil => rfl
  | cons c m ih =>
    obtain ⟨a', v⟩ := c
    simp only [Memory.risingFrom, Bool.and_eq_true, decide_eq_true_eq] at hm
    obtain ⟨⟨-, ha'⟩, hm⟩ := hm
    rw [Memory.read, if_neg (by omega)]
    exact ih hm

/-- A read after the erasure of `n` cells from `a` on. -/
theorem read_eraseFrom (m : Memory) (a n b : Nat) (hm : Memory.wf m = true) :
    Memory.read (Memory.eraseFrom m a n) b = if a ≤ b ∧ b < a + n then none else Memory.read m b := by
  induction n generalizing m a with
  | zero => rw [Memory.eraseFrom, if_neg (by omega)]
  | succ n ih =>
    rw [Memory.eraseFrom, ih _ _ (erase_wf m a hm), read_erase m a b hm]
    by_cases hb : a = b
    · rw [if_pos hb, ite_self, if_pos (by omega)]
    · rw [if_neg hb]
      congr 1
      simp only [eq_iff_iff]
      omega

/-- A read after `data` has been written from cell `a` on. -/
theorem read_writeFrom (m : Memory) (a : Nat) (data : List Byte) (b : Nat) (hm : Memory.wf m = true)
    (hd : a + data.length ≤ Config.bufSize) :
    Memory.read (Memory.writeFrom m a data) b =
      if a ≤ b ∧ b < a + data.length then data[b - a]? else Memory.read m b := by
  induction data generalizing m a with
  | nil => rw [Memory.writeFrom, if_neg (by rw [List.length_nil]; omega)]
  | cons v data ih =>
    rw [List.length_cons] at hd ⊢
    rw [Memory.writeFrom, ih _ _ (write_wf m a v hm (by omega)) (by omega), read_write m a b v hm]
    obtain hlt | rfl | hgt := Nat.lt_trichotomy b a
    · rw [if_neg (by omega), if_neg (by omega), if_neg (by omega)]
    · rw [if_neg (by omega), if_pos rfl, if_pos (by omega), Nat.sub_self, List.getElem?_cons_zero]
    · obtain ⟨d, rfl⟩ := Nat.exists_eq_add_of_lt hgt
      rw [if_neg (show a ≠ a + d + 1 by omega), show a + d + 1 - a = d + 1 by omega, List.getElem?_cons_succ,
        show a + d + 1 - (a + 1) = d by omega]
      congr 1
      simp only [eq_iff_iff]
      omega

/-- The cells after a completed read (20_memory R70, R74): the data, then cells without a known byte, then the old ones. -/
theorem read_receive (n : Nat) (data : List Byte) (m : Memory) (a : Nat) (hm : Memory.wf m = true) (hd : data.length ≤ n)
    (hn : n ≤ Config.bufSize) :
    Memory.read (receive n data m) a =
      if a < data.length then data[a]? else if a < n then none else Memory.read m a := by
  rw [receive, read_writeFrom _ _ _ _ (eraseFrom_wf m _ _ hm) (by omega), read_eraseFrom m _ _ _ hm]
  by_cases ha : a < data.length
  · rw [if_pos (by omega), if_pos ha, Nat.sub_zero]
  · rw [if_neg (by omega), if_neg ha]
    congr 1
    simp only [eq_iff_iff]
    omega

/-- After the erasure of the whole buffer no cell holds a known byte. -/
theorem read_eraseFrom_all (m : Memory) (a : Nat) (hm : Memory.wf m = true) :
    Memory.read (Memory.eraseFrom m 0 Config.bufSize) a = none := by
  rw [read_eraseFrom m _ _ _ hm]
  split
  · rfl
  · exact read_above m a hm (by omega)

/-- A write that completes well. -/
theorem complete_okWrite {b n : Nat} {s : State} {T : Transport} {addr : BusAddr} {bytes : List Byte} {stop : Bool}
    (hT : s.buses[b]? = some T) (hi : T.inflight = some (.write addr bytes stop)) (hn : n ≤ bytes.length) :
    complete b (.okWrite n) s = .next (setBus b (completed false T.errcode n) s) := by
  simp [complete, onBus_of _ hT, hi, completeWrite, hn]

/-- A write that fails. -/
theorem complete_err_of_write {b n : Nat} {s : State} {T : Transport} {addr : BusAddr} {bytes : List Byte} {stop : Bool}
    (code : Int) (hT : s.buses[b]? = some T) (hi : T.inflight = some (.write addr bytes stop)) (hn : n ≤ bytes.length) :
    complete b (.err code n) s = .next (setBus b (completed true code n) s) := by
  simp [complete, onBus_of _ hT, hi, completeErr, hn]

/-- A read that completes well fills the buffer of the sensor it names. -/
theorem complete_okRead {b dest n : Nat} {s : State} {T : Transport} {S : Sensor} {addr : BusAddr} {stop : Bool}
    {data : List Byte} (hT : s.buses[b]? = some T) (hi : T.inflight = some (.read addr dest n stop))
    (hS : s.sensors[dest]? = some S) (hd : data.length ≤ n) (hn : n ≤ Config.bufSize) :
    complete b (.okRead data) s =
      .next (setBus b (completed false T.errcode data.length)
        (withSensor dest { S with buf := receive n data S.buf } s)) := by
  have hc : complete b (.okRead data) s = completeRead b T dest n data s := by rw [complete, onBus_of _ hT, hi]
  rw [hc, completeRead, if_neg (Nat.not_lt.mpr hd), if_neg (Nat.not_lt.mpr hn),
    updSensor_withSensor _ (s := setBus b _ s) hS]
  rfl

/-- A read that fails leaves no known byte in the buffer of the sensor it names. -/
theorem complete_err_of_read {b dest n m : Nat} {s : State} {T : Transport} {S : Sensor} {addr : BusAddr} {stop : Bool}
    (code : Int) (hT : s.buses[b]? = some T) (hi : T.inflight = some (.read addr dest n stop))
    (hS : s.sensors[dest]? = some S) (hm : m ≤ n) :
    complete b (.err code m) s =
      .next (setBus b (completed true code m)
        (withSensor dest { S with buf := Memory.eraseFrom S.buf 0 Config.bufSize } s)) := by
  have hc : complete b (.err code m) s = completeErr b (.read addr dest n stop) code m s := by
    rw [complete, onBus_of _ hT, hi]
  rw [hc, completeErr, if_pos hm, updSensor_withSensor _ (s := setBus b _ s) hS]
  rfl

/-- With nothing in flight there is no completion. -/
theorem complete_idle {b : Nat} {s : State} {T : Transport} (hT : s.buses[b]? = some T) (hi : T.inflight = none)
    (c : Completion) : complete b c s = .refused .nothingInFlight := by
  rw [complete, onBus_of _ hT, hi]

/-- Settles O41: the four completions, with the cells of the buffer by `read_receive` and `read_eraseFrom_all`. -/
theorem transportCompletion : Obligations.TransportCompletion := by
  intro s b T hT
  refine ⟨fun addr bytes stop n hi hn => ⟨complete_okWrite hT hi hn, fun code => complete_err_of_write code hT hi hn⟩,
    fun addr dest n stop S hi hS hwf hn => ⟨fun data hd => ?_, fun code m hm => ?_⟩, complete_idle hT⟩
  · exact ⟨receive n data S.buf, complete_okRead hT hi hS hd hn, receive_wf n data S.buf hwf (hd.trans hn),
      fun a => read_receive n data S.buf a hwf hd hn⟩
  · exact ⟨_, complete_err_of_read code hT hi hS hm, fun a => read_eraseFrom_all S.buf a hwf⟩

end Sys2Proof.Proofs
end

section
/-! PROOFS. Every issue on a busy bus faults (20_memory R67, 70_reset_and_hazards R312). -/

namespace Sys2Proof.Proofs

open Sys2Proof.Machine Sys2Proof.Laws Sys2Proof.Safety

/-- Where the transition of a tick begins with an issue, the tick faults on a busy bus. -/
theorem advanceWith_busy {k : Nat} {s : State} {S : Sensor} {T : Transport} {r : ReadState} {e : Effect} {es : List Effect}
    (report : ReadState → Result) (hS : s.sensors[k]? = some S) (hp : S.profile = .TEMP) (hT : s.buses[S.bus]? = some T)
    (hi : T.inflight ≠ none) (hsample : sampled s S T = (r, e :: es))
    (he : (∃ cmd, e = .issueWrite cmd) ∨ ∃ n, e = .issueRead n) : advanceWith report k s = .fault .busyIssue := by
  have hfault : perform k S e s = .fault .busyIssue := by
    obtain ⟨cmd, rfl⟩ | ⟨n, rfl⟩ := he
    · exact issue_busy _ hT hi
    · exact issue_busy _ hT hi
  rw [advanceWith_of report hS hp hT, hsample, performAll_cons, hfault]
  rfl

/-- ADVANCE and TICK fault on a busy bus in Idle, at the end of the conversion, and after the second command's finish. -/
theorem advanceWith_busyIssue {k : Nat} {s : State} {S : Sensor} {T : Transport} (report : ReadState → Result)
    (hS : s.sensors[k]? = some S) (hp : S.profile = .TEMP) (hT : s.buses[S.bus]? = some T) (hi : T.inflight ≠ none)
    (hrs : S.rs = .Idle ∨ (∃ t0, S.rs = .WaitConversion ∧ S.tConv = some t0 ∧ t0 + 10 ≤ s.CLK) ∨
      (S.rs = .RequestData ∧ T.finished = true ∧ T.error = false)) :
    advanceWith report k s = .fault .busyIssue := by
  obtain hrs | ⟨t0, hrs, ht, hclk⟩ | ⟨hrs, hfin, herr⟩ := hrs
  · exact advanceWith_busy report hS hp hT hi (sampled_idle T hrs hp) (.inl ⟨_, rfl⟩)
  · have hdue : 10 ≤ elapsed s S.tConv := by rw [ht, elapsed_some]; omega
    exact advanceWith_busy report hS hp hT hi ((sampled_waitConversion T hrs hp).trans (if_pos hdue)) (.inl ⟨_, rfl⟩)
  · have hdone := sampled_requestData (s := s) T hrs
    rw [pollOf_eq_done_iff.mpr ⟨hfin, herr⟩, pollTransition_Done] at hdone
    exact advanceWith_busy report hS hp hT hi hdone (.inr ⟨_, rfl⟩)

/-- An issue of a blocking operation faults on a busy bus. -/
theorem issueAndWait_busy (B : Blocking) (ph : Phase) (tr : Transaction) {b : Nat} {s : State} {T : Transport}
    (hT : s.buses[b]? = some T) (hi : T.inflight ≠ none) :
    issueAndWait B ph (issue b tr s) = .fault .busyIssue := by
  rw [issueAndWait, issue_busy tr hT hi, andThen_of_fault]

/-- INIT faults on a busy bus. -/
theorem execInit_busy {k : Nat} {s : State} {S : Sensor} {T : Transport} (hS : s.sensors[k]? = some S)
    (hT : s.buses[S.bus]? = some T) (hi : T.inflight ≠ none) (hok : S.initOk = false) :
    execInit k s = .fault .busyIssue := by
  have hT' : (setRet .none s).buses[S.bus]? = some T := hT
  rw [execInit, onSensor_of _ hS rfl, hok, initFirst]
  cases S.profile with
  | TEMP => exact issueAndWait_busy _ _ _ hT' hi
  | PRES => exact issueAndWait_busy _ _ _ hT' hi

/-- READ_BLOCKING faults on a busy bus. -/
theorem execReadBlocking_busy {k : Nat} {s : State} {S : Sensor} {T : Transport} (hS : s.sensors[k]? = some S)
    (hT : s.buses[S.bus]? = some T) (hi : T.inflight ≠ none) (hp : S.profile = .PRES) :
    execReadBlocking k s = .fault .busyIssue := by
  rw [execReadBlocking, onSensor_of _ hS (by rw [hp]; rfl)]
  exact issueAndWait_busy _ _ _ (s := setRet .none s) hT hi

/-- A bus command row faults on a busy bus. -/
theorem issueFrame_busy {b : Nat} (f : Frame) {s : State} {T : Transport} (hT : s.buses[b]? = some T)
    (hi : T.inflight ≠ none) : issueFrame b f s = .fault .busyIssue := by
  rw [issueFrame, issue_busy _ hT hi, andThen_of_fault]

/-- INIT at a word's command and at its read faults on a busy bus. -/
theorem microStep_issue_busy {B : Blocking} {s : State} {S : Sensor} {T : Transport} (h : Has s B.sensor S T)
    (hi : T.inflight ≠ none) (hph : ∃ w, B.phase = .cmdIssue w ∨ B.phase = .dataIssue w) :
    microStep B s = .fault .busyIssue := by
  obtain ⟨hS, hT⟩ := h
  rw [microStep, onSensor_of _ hS rfl, onBus_of _ hT]
  obtain ⟨w, hph | hph⟩ := hph
  · rw [hph]
    exact issueAndWait_busy _ _ _ hT hi
  · rw [hph]
    exact issueAndWait_busy _ _ _ hT hi

/-- READ_BLOCKING at the end of its delay faults on a busy bus. -/
theorem microStep_measureDelay_busy {B : Blocking} {s : State} {S : Sensor} {T : Transport} {t0 : Nat}
    (h : Has s B.sensor S T) (hi : T.inflight ≠ none) (hph : B.phase = .measureDelay) (hp : S.profile = .PRES)
    (ht : S.tConv = some t0) (hclk : t0 + 9 ≤ s.CLK) : microStep B s = .fault .busyIssue := by
  obtain ⟨hS, hT⟩ := h
  have hdue : S.profile.tConvMin ≤ elapsed s S.tConv := by
    rw [hp, ht, elapsed_some, Profile.tConvMin]
    omega
  rw [microStep, onSensor_of _ hS rfl, onBus_of _ hT, hph]
  simp only [if_pos hdue]
  exact issueAndWait_busy _ _ _ hT hi

/-- An update of sensor `k` that keeps its bus number leaves it on its bus. -/
theorem has_of_modify {k : Nat} {s t : State} {S : Sensor} {T : Transport} {f : Sensor → Sensor} (h : Has s k S T)
    (hs : t.sensors = s.sensors.modify k f) (hb : t.buses = s.buses) (hf : (f S).bus = S.bus) : Has t k (f S) T := by
  obtain ⟨hS, hT⟩ := h
  exact ⟨by simp [hs, hS], by rw [hb, hf, hT]⟩

/-- A wait of INIT that timed out, but the last word's, ends in a phase that issues; the buses stay, and the sensor stays on
its bus. -/
theorem microStep_timedOut {B : Blocking} {s : State} {S : Sensor} {T : Transport} (h : Has s B.sensor S T)
    (hq : pollOf s S T = .TimedOut)
    (hph : B.phase = .resetWait ∨ ∃ w, B.phase = .cmdWait w ∨ (B.phase = .dataWait w ∧ w + 1 < S.profile.nCal)) :
    ∃ t B' S', microStep B s = .next t ∧ t.blk = some B' ∧ t.buses = s.buses ∧ Has t B'.sensor S' T ∧
      ∃ w, B'.phase = .cmdIssue w ∨ B'.phase = .dataIssue w := by
  obtain ⟨hS, hT⟩ := id h
  rw [microStep, onSensor_of _ hS rfl, onBus_of _ hT]
  obtain hph | ⟨w, hph | ⟨hph, hw⟩⟩ := hph
  · simp only [hph, hq, beginGap_eq]
    exact ⟨_, _, _, rfl, rfl, rfl, has_of_modify h rfl rfl rfl, 0, .inl rfl⟩
  · simp only [hph, hq, beginGap_eq]
    exact ⟨_, _, _, rfl, rfl, rfl, has_of_modify h rfl rfl rfl, w, .inr rfl⟩
  · simp only [hph, hq, wordEnd, if_pos hw]
    exact ⟨_, _, _, rfl, rfl, rfl, has_of_modify h rfl rfl rfl, w + 1, .inl rfl⟩

/-- Settles O26: the issue behind each operation and each micro-step meets the busy bus. -/
theorem busyBusFaults : Obligations.BusyBusFaults := by
  refine ⟨fun k s S T ⟨hS, hT⟩ hi => ⟨fun hp hrs => ?_, execInit_busy hS hT hi, execReadBlocking_busy hS hT hi⟩,
    fun B s S T h hi => ⟨microStep_issue_busy h hi, fun t0 => microStep_measureDelay_busy h hi, fun hph hq => ?_⟩,
    fun s b stop T hT hi i h => ?_⟩
  · exact ⟨advanceWith_busyIssue _ hS hp hT hi hrs, advanceWith_busyIssue (fun r => .tick (tickOf r)) hS hp hT hi hrs⟩
  · obtain ⟨t, B', S', hstep, hblk, hbuses, h', hissue⟩ := microStep_timedOut h hq hph
    exact ⟨t, B', hstep, hblk, hbuses, fun d => microStep_issue_busy h' hi hissue⟩
  · obtain ⟨f, hf⟩ : ∃ f, exec i s = issueFrame b f s := by
      obtain h | ⟨w, rfl⟩ := h
      · simp only [List.mem_cons, List.not_mem_nil, or_false] at h
        rcases h with rfl | rfl | rfl | rfl | rfl | rfl | rfl | rfl | rfl | rfl | rfl <;> exact ⟨_, rfl⟩
      · exact ⟨_, rfl⟩
    rw [hf, issueFrame_busy f hT hi]

end Sys2Proof.Proofs
end

section
/-! SUPPORT. The transactions in flight, the pcs of the sensors, and what the updates a step is made of leave of them. -/

namespace Sys2Proof.Proofs

open Sys2Proof.Machine Sys2Proof.Laws Sys2Proof.Safety

/-- What is in flight on bus `b`. -/
def flight (s : State) (b : Nat) : Option Transaction := s.buses[b]?.bind Transport.inflight

theorem flight_eq_some_iff {s : State} {b : Nat} {tr : Transaction} :
    flight s b = some tr ↔ ∃ T, s.buses[b]? = some T ∧ T.inflight = some tr := by
  simp [flight, Option.bind_eq_some_iff]

theorem flight_of {s : State} {b : Nat} {T : Transport} (hT : s.buses[b]? = some T) : flight s b = T.inflight := by
  simp [flight, hT]

theorem flight_congr {s t : State} (h : t.buses = s.buses) (b : Nat) : flight t b = flight s b := by
  rw [flight, h, flight]

/-- After a transport has been replaced, what flies on it is what it carries. -/
theorem flight_of_set {s t : State} {c : Nat} {T : Transport} (h : t.buses = s.buses.set c T) {b : Nat} {tr : Transaction}
    (hb : flight t b = some tr) : flight s b = some tr ∨ b = c ∧ T.inflight = some tr := by
  rw [flight, h, List.getElem?_set] at hb
  split at hb
  · next hc =>
    split at hb
    · exact .inr ⟨hc.symm, hb⟩
    · cases hb
  · exact .inl hb

@[simp] theorem atPhase_buses (B : Blocking) (ph : Phase) (s : State) : (atPhase B ph s).buses = s.buses := rfl

@[simp] theorem stampConv_buses (k : Nat) (s : State) : (stampConv k s).buses = s.buses := rfl

@[simp] theorem finish_buses (r : Result) (s : State) : (finish r s).buses = s.buses := rfl

@[simp] theorem waitDiag_buses (r : PollResult) (T : Transport) (s : State) : (waitDiag r T s).buses = s.buses := by
  cases r <;> rfl

/-- The end of a word's read issues nothing. -/
theorem wordEnd_buses (B : Blocking) (S : Sensor) (T : Transport) (w : Nat) (r : PollResult) (s : State) :
    (wordEnd B S T w r s).buses = s.buses := by
  unfold wordEnd
  split <;> cases r <;> rfl

/-- After a word's read INIT is about to issue the next command, or has ended. -/
theorem wordEnd_blk (B : Blocking) (S : Sensor) (T : Transport) (w : Nat) (r : PollResult) (s : State) :
    (wordEnd B S T w r s).blk = none ∨ ∃ B', (wordEnd B S T w r s).blk = some B' ∧ B'.phase = .cmdIssue (w + 1) := by
  unfold wordEnd
  split
  · exact .inr ⟨_, rfl, rfl⟩
  · exact .inl rfl

/-- The pcs of the sensors. -/
def pcs (s : State) : List ReadState := s.sensors.map Sensor.rs

/-- An update that keeps the pc. -/
@[simp] theorem map_rs_modify {f : Sensor → Sensor} (hf : ∀ S, (f S).rs = S.rs) (l : List Sensor) (k : Nat) :
    (l.modify k f).map Sensor.rs = l.map Sensor.rs := by
  apply List.ext_getElem?
  intro j
  by_cases hj : k = j <;> simp [hj, Function.comp_def, hf]

/-- An update that sets it. -/
@[simp] theorem map_rs_modify_set (r : ReadState) (l : List Sensor) (k : Nat) :
    (l.modify k fun S => { S with rs := r }).map Sensor.rs = (l.map Sensor.rs).set k r := by
  apply List.ext_getElem?
  intro j
  by_cases hj : k = j
  · subst hj
    rw [List.getElem?_set_self']
    simp [Function.comp_def]
  · simp [hj]

theorem pcs_of {s : State} {k : Nat} {S : Sensor} (hS : s.sensors[k]? = some S) : (pcs s)[k]? = some S.rs := by
  simp [pcs, hS]

@[simp] theorem decodeStore_rs (draw : Nat) (S : Sensor) : (decodeStore draw S).rs = S.rs := rfl

@[simp] theorem measureStore_rs (draw : Nat) (S : Sensor) : (measureStore draw S).rs = S.rs := rfl

/-- While nothing blocks, the operation taken says which sensor the step moves. -/
theorem mover_of_taken {s : State} {i : Instr} (hs : s.blk = none) (ht : taken s = some i) : mover s = subject i := by
  simp [mover, hs, ht]

end Sys2Proof.Proofs
end

section
/-! SUPPORT. What a step does to the transactions in flight and to what waits for them, and the few shapes such a step has. -/

namespace Sys2Proof.Proofs

open Sys2Proof.Machine Sys2Proof.Laws Sys2Proof.Safety

/-- In this state of the pc anything may be in flight. -/
def RestingPc (r : ReadState) : Prop := ∀ k tr, phaseTransaction k r tr

/-- In this phase anything may be in flight. -/
def RestingPhase (ph : Phase) : Prop := ∀ k S tr, blockingTransaction k S ph tr

/-- The bus of sensor `k` is free or has finished. -/
def BusDone (k : Nat) (s : State) : Prop := ∃ S T, Has s k S T ∧ (T.inflight = none ∨ T.finished = true)

/-- In a sound state such a bus carries nothing, for a busy transport reads "not finished" (20_memory R67). -/
theorem BusDone.flight_none {k : Nat} {s : State} {S : Sensor} (h : BusDone k s) (hs : MachineInv s)
    (hS : s.sensors[k]? = some S) : flight s S.bus = none := by
  obtain ⟨S', T, ⟨hS', hT⟩, hdone⟩ := h
  obtain rfl : S = S' := Option.some.inj (hS.symm.trans hS')
  rw [flight_of hT]
  obtain hfree | hfin := hdone
  · exact hfree
  · by_contra hbusy
    obtain ⟨tr, htr⟩ := Option.ne_none_iff_exists'.mp hbusy
    obtain ⟨hnot, -⟩ := hs.buses T (List.mem_of_getElem? hT) tr htr
    rw [hfin] at hnot
    cases hnot

/-- Who brings transaction `tr` onto bus `b` in a step from `s` to `t`. -/
inductive Issued (s t : State) (b : Nat) (tr : Transaction) : Prop
  /-- the host, by a tick of a sensor, whose pc then waits for it, or by a bare frame, which moves no sensor -/
  | byHost (hs : s.blk = none) (ht : t.blk = none)
      (hpc : ∀ k, mover s = some k → ∀ r, (pcs t)[k]? = some r → phaseTransaction k r tr)
  /-- a blocking operation, whose phase then waits for it -/
  | byBlock (B : Blocking) (S : Sensor) (hm : mover s = some B.sensor) (hS : s.sensors[B.sensor]? = some S) (hb : S.bus = b)
      (hB : t.blk = some B) (haddr : addressedBy B.sensor S tr)
      (hown : BlockingSound s → blockingTransaction B.sensor S B.phase tr)

/-- What a step from `s` to `t` does to the transactions in flight, to the pcs and to the phase of the blocking operation. -/
structure Traffic (s t : State) : Prop where
  issue : ∀ b tr, flight t b = some tr → flight s b = some tr ∨ flight s b = none ∧ Issued s t b tr
  pc : ∀ k r, (pcs t)[k]? = some r → RestingPc r ∨ (pcs s)[k]? = some r ∨ mover s = some k ∧ BusDone k s
  phase : ∀ B, t.blk = some B → RestingPhase B.phase ∨ s.blk = some B ∨ BusDone B.sensor s

/-- A step that issues nothing and moves no pc. -/
theorem Traffic.of_quiet {s t : State} (hb : ∀ b tr, flight t b = some tr → flight s b = some tr) (hp : pcs t = pcs s)
    (hB : ∀ B, t.blk = some B → RestingPhase B.phase ∨ s.blk = some B ∨ BusDone B.sensor s) : Traffic s t where
  issue := fun b tr h => .inl (hb b tr h)
  pc := fun k r h => .inr (.inl (by rwa [← hp]))
  phase := hB

/-- A step that leaves the buses, the pcs and the blocking operation alone. -/
theorem Traffic.of_same {s t : State} (hb : t.buses = s.buses) (hp : pcs t = pcs s) (hB : t.blk = s.blk) : Traffic s t :=
  .of_quiet (fun b _ => (flight_congr hb b).symm.trans) hp fun _ h => .inr (.inl (hB.symm.trans h))

/-- The one transaction an issue on a free bus brings. -/
theorem flight_of_issue {s t : State} {c draw : Nat} {T : Transport} {tr : Transaction} (hT : s.buses[c]? = some T)
    (hf : T.inflight = none) (hb : t.buses = s.buses.set c (issued draw tr)) (hi : Issued s t c tr) (b : Nat)
    (tr' : Transaction) (h : flight t b = some tr') :
    flight s b = some tr' ∨ flight s b = none ∧ Issued s t b tr' := by
  obtain h | ⟨rfl, h⟩ := flight_of_set hb h
  · exact .inl h
  · cases h
    exact .inr ⟨(flight_of hT).trans hf, hi⟩

/-- A step that moves the pc of sensor `k` alone. -/
theorem pc_of_set {s t : State} {k : Nat} {next : ReadState} (hp : pcs t = (pcs s).set k next)
    (hnext : RestingPc next ∨ (pcs s)[k]? = some next ∨ mover s = some k ∧ BusDone k s) (j : Nat) (r : ReadState)
    (hr : (pcs t)[j]? = some r) : RestingPc r ∨ (pcs s)[j]? = some r ∨ mover s = some j ∧ BusDone j s := by
  rw [hp, List.getElem?_set] at hr
  split at hr
  · next hj =>
    subst hj
    split at hr
    · cases hr; exact hnext
    · cases hr
  · exact .inr (.inl hr)

/-- A step that moves the pc of sensor `k` to a state where it rests or was, or with its bus free or done. -/
theorem Traffic.of_tick {s t : State} {k : Nat} {S : Sensor} {T : Transport} (next : ReadState) (hm : mover s = some k)
    (h : Has s k S T) (hp : pcs t = (pcs s).set k next) (hB : t.blk = s.blk)
    (hnext : RestingPc next ∨ next = S.rs ∨ T.inflight = none ∨ T.finished = true)
    (hf : ∀ b tr, flight t b = some tr → flight s b = some tr ∨ flight s b = none ∧ Issued s t b tr) : Traffic s t := by
  refine ⟨hf, pc_of_set hp ?_, fun B h => .inr (.inl (hB.symm.trans h))⟩
  obtain hrest | rfl | hdone := hnext
  · exact .inl hrest
  · exact .inr (.inl (pcs_of h.1))
  · exact .inr (.inr ⟨hm, S, T, h, hdone⟩)

/-- A tick that issues nothing. -/
theorem Traffic.of_tick_quiet {s t : State} {k : Nat} {S : Sensor} {T : Transport} (next : ReadState)
    (hm : mover s = some k) (h : Has s k S T) (hb : t.buses = s.buses) (hp : pcs t = (pcs s).set k next)
    (hB : t.blk = s.blk) (hnext : RestingPc next ∨ next = S.rs ∨ T.inflight = none ∨ T.finished = true) : Traffic s t :=
  .of_tick next hm h hp hB hnext fun b _ hf => .inl ((flight_congr hb b).symm.trans hf)

/-- A tick that issues the transaction its pc then waits for. -/
theorem Traffic.of_tick_issue {s t : State} {k draw : Nat} {S : Sensor} {T : Transport} {tr : Transaction}
    (next : ReadState) (hm : mover s = some k) (h : Has s k S T) (hs : s.blk = none) (hf : T.inflight = none)
    (hb : t.buses = s.buses.set S.bus (issued draw tr)) (hp : pcs t = (pcs s).set k next) (hB : t.blk = s.blk)
    (hown : phaseTransaction k next tr) : Traffic s t := by
  refine .of_tick next hm h hp hB (.inr (.inr (.inl hf))) (flight_of_issue h.2 hf hb (.byHost hs (hB.trans hs) ?_))
  intro j hj r hr
  obtain rfl : k = j := Option.some.inj (hm.symm.trans hj)
  rw [hp, List.getElem?_set_self'] at hr
  obtain ⟨-, -, rfl⟩ := Option.map_eq_some_iff.mp hr
  exact hown

/-- A step in which a blocking operation issues the transaction its phase then waits for. -/
theorem Traffic.of_block_issue {s t : State} {B : Blocking} {draw : Nat} {S : Sensor} {T : Transport} {tr : Transaction}
    (hm : mover s = some B.sensor) (h : Has s B.sensor S T) (hf : T.inflight = none)
    (hb : t.buses = s.buses.set S.bus (issued draw tr)) (hp : pcs t = pcs s) (hB : t.blk = some B)
    (haddr : addressedBy B.sensor S tr) (hown : BlockingSound s → blockingTransaction B.sensor S B.phase tr) :
    Traffic s t where
  issue := flight_of_issue h.2 hf hb (.byBlock B S hm h.1 rfl hB haddr hown)
  pc := fun k r hr => .inr (.inl (by rwa [← hp]))
  phase := by
    intro B' hB'
    obtain rfl : B = B' := Option.some.inj (hB.symm.trans hB')
    exact .inr (.inr ⟨S, T, h, .inl hf⟩)

/-- A step of a blocking operation that issues nothing: it ends, or goes to a phase
that waits for nothing, or has seen the bus finish. -/
theorem Traffic.of_block_quiet {s t : State} (hb : t.buses = s.buses) (hp : pcs t = pcs s)
    (hB : t.blk = none ∨ ∃ B, t.blk = some B ∧ (RestingPhase B.phase ∨ BusDone B.sensor s)) : Traffic s t := by
  refine .of_quiet (fun b _ => (flight_congr hb b).symm.trans) hp fun B h => ?_
  obtain hB | ⟨B', hB, hwaits⟩ := hB
  · rw [hB] at h
    cases h
  · obtain rfl : B = B' := Option.some.inj (h.symm.trans hB)
    exact hwaits.imp_right .inr

end Sys2Proof.Proofs
end

section
/-! SUPPORT. The traffic of every agent's step: `step_traffic`. -/

namespace Sys2Proof.Proofs

open Sys2Proof.Machine Sys2Proof.Laws Sys2Proof.Safety

/-- A transport's completion only takes its transaction off the bus. -/
theorem complete_traffic {b : Nat} {c : Completion} {s t : State} {rest : List Line}
    (h : complete b c { s with script := rest } = .next t) : Traffic s t := by
  obtain ⟨T, tr, -, -, h⟩ := complete_next h
  obtain ⟨_, _, _, _, _, _, _, rfl⟩ | ⟨_, _, _, _, _, _, _, _, _, rfl⟩ | ⟨_, _, _, _, _, _, _, _, rfl⟩ |
    ⟨_, _, _, _, _, _, _, _, _, rfl⟩ := h
  all_goals
    refine .of_quiet (fun b tr h => ?_) (by simp [pcs]) fun B hB => .inr (.inl hB)
    obtain h | ⟨-, h⟩ := flight_of_set rfl h
    · exact h
    · cases h

/-- A tick that issues a transaction lets the pc wait for it, and needs a free bus; one that does not leaves the pc, or rests,
or has seen the bus finish. -/
theorem advanceWith_traffic {report : ReadState → Result} {k : Nat} {s t : State} {rest : List Line} (hs : s.blk = none)
    (hm : mover s = some k) (h : advanceWith report k { s with script := rest } = .next t) : Traffic s t := by
  obtain ⟨S, T, next, u, hS, hp, hT, rfl, hcases⟩ := advanceWith_next h
  have hHas : Has s k S T := ⟨hS, hT⟩
  obtain ⟨rfl, _, rfl⟩ | ⟨_, rfl, hf, rfl⟩ | ⟨_, hq, rfl, rfl⟩ | ⟨_, _, rfl, hf, rfl⟩ | ⟨_, _, rfl, hf, rfl⟩ |
    ⟨_, _, rfl, rfl⟩ | ⟨_, _, rfl, rfl⟩ := hcases
  · exact .of_tick_quiet S.rs hm hHas rfl (by simp [pcs]) rfl (.inr (.inl rfl))
  · exact .of_tick_issue .StartConversion hm hHas hs hf rfl (by simp [pcs]) rfl rfl
  · exact .of_tick_quiet .WaitConversion hm hHas rfl (by simp [pcs]) rfl
      (.inr (.inr (.inr (pollOf_eq_done_iff.mp hq).1)))
  · exact .of_tick_issue .RequestData hm hHas hs hf rfl (by simp [pcs]) rfl rfl
  · exact .of_tick_issue .WaitData hm hHas hs hf rfl (by simp [pcs]) rfl rfl
  · exact .of_tick_quiet .Complete hm hHas rfl (by simp [pcs, map_rs_modify (decodeStore_rs _)]) rfl
      (.inl fun _ _ => trivial)
  · exact .of_tick_quiet .Error hm hHas rfl (by simp [pcs]) rfl (.inl fun _ _ => trivial)

/-- An operation issues by a tick, as the beginning of a blocking operation, or as a bare frame. -/
theorem exec_traffic {i : Instr} {s t : State} {rest : List Line} (hs : s.blk = none) (ht : taken s = some i)
    (hw : i.wellFormed = true) (h : exec i { s with script := rest } = .next t) : Traffic s t := by
  have hm := mover_of_taken hs ht
  obtain ⟨r, rfl⟩ | ⟨k, r, -, rfl⟩ | ⟨k, S, rfl, hS, -, rfl⟩ | ⟨k, report, hi, h⟩ | ⟨k, rfl, h⟩ | ⟨k, rfl, h⟩ |
    ⟨b, f, j, hi, -, h⟩ := exec_next hw h
  · exact .of_same rfl rfl rfl
  · exact .of_same rfl rfl rfl
  · exact ⟨fun _ _ => .inl, pc_of_set (k := k) (next := .Idle) (by simp [pcs]) (.inl fun _ _ => trivial),
      fun _ => .inr ∘ .inl⟩
  · exact advanceWith_traffic hs (hm.trans (by obtain rfl | rfl := hi <;> rfl)) h
  · obtain ⟨S, T, hS, -, hT, hf, ⟨hp, rfl⟩ | ⟨hp, rfl⟩⟩ := execInit_next h
    · exact .of_block_issue (B := ⟨k, .resetWait, 0⟩) hm ⟨hS, hT⟩ hf rfl (by simp [pcs]) rfl
        (by rw [addressedBy, hp]; rfl) fun _ => rfl
    · exact .of_block_issue (B := ⟨k, .cmdWait 0, 0⟩) hm ⟨hS, hT⟩ hf rfl (by simp [pcs]) rfl
        (by rw [addressedBy, hp]; rfl) fun _ => by rw [blockingTransaction, hp]; rfl
  · obtain ⟨S, T, hS, hp, hT, hf, rfl⟩ := execReadBlocking_next h
    exact .of_block_issue (B := ⟨k, .measureWait, 0⟩) hm ⟨hS, hT⟩ hf rfl (by simp [pcs]) rfl
      (by rw [addressedBy, hp]; rfl) fun _ => rfl
  · obtain ⟨T, hT, hf, rfl⟩ := issueFrame_next h
    refine ⟨flight_of_issue hT hf rfl (.byHost hs hs fun k hk => ?_), fun _ _ => .inr ∘ .inl, fun _ => .inr ∘ .inl⟩
    rw [hm, hi] at hk
    cases hk

/-- A micro-step that issues lets its phase wait for that transaction; one that issues nothing leaves the buses alone. -/
theorem microStep_traffic {B : Blocking} {s t : State} {rest : List Line} (hB : s.blk = some B)
    (h : microStep B { s with script := rest } = .next t) : Traffic s t := by
  have hm : mover s = some B.sensor := by rw [mover, hB]
  obtain ⟨S, T, hS, hT, h⟩ := microStep_next h
  have hHas : Has s B.sensor S T := ⟨hS, hT⟩
  obtain rfl | ⟨_, _, rfl⟩ | ⟨_, rfl⟩ | ⟨w, _, hf, rfl⟩ | ⟨w, _, _, rfl⟩ | ⟨w, _, rfl⟩ | ⟨w, _, hf, rfl⟩ | ⟨w, hph, _, rfl⟩ |
    ⟨_, hq, rfl⟩ | ⟨_, _, rfl⟩ | ⟨hph, _, hf, rfl⟩ | ⟨hph, hq, rfl⟩ := h
  · exact .of_same rfl rfl rfl
  · exact .of_block_quiet (by simp) (by simp [pcs]) (.inr ⟨_, rfl, .inl fun _ _ _ => trivial⟩)
  · exact .of_block_quiet rfl rfl (.inr ⟨_, rfl, .inl fun _ _ _ => trivial⟩)
  · exact .of_block_issue (B := { B with phase := .cmdWait w }) hm hHas hf rfl (by simp [pcs]) rfl rfl fun _ => rfl
  · exact .of_block_quiet (by simp) (by simp [pcs]) (.inr ⟨_, rfl, .inl fun _ _ _ => trivial⟩)
  · exact .of_block_quiet rfl rfl (.inr ⟨_, rfl, .inl fun _ _ _ => trivial⟩)
  · exact .of_block_issue (B := { B with phase := .dataWait w }) hm hHas hf rfl (by simp [pcs]) rfl ⟨rfl, rfl⟩ fun _ => rfl
  · obtain ⟨c, ok, hc⟩ := wordEnd_sensors B S T w (pollOf { s with script := rest } S T) { s with script := rest }
    refine .of_block_quiet (wordEnd_buses ..) (by simp [pcs, hc]) ((wordEnd_blk ..).imp_right ?_)
    rintro ⟨B', hB', hph'⟩
    exact ⟨B', hB', .inl (by rw [hph']; exact fun _ _ _ => trivial)⟩
  · exact .of_block_quiet rfl (by simp [pcs]) (.inr ⟨_, rfl, .inr ⟨S, T, hHas, .inr (pollOf_eq_done_iff.mp hq).1⟩⟩)
  · exact .of_block_quiet (by simp) (by simp [pcs]) (.inl rfl)
  · refine .of_block_issue (B := { B with phase := .measureData }) hm hHas hf rfl (by simp [pcs]) rfl ⟨rfl, rfl⟩
      fun hsound => ?_
    obtain ⟨S', hS', hphase⟩ := hsound B hB
    obtain rfl : S = S' := Option.some.inj (hS.symm.trans hS')
    rw [hph] at hphase
    obtain ⟨hp, -⟩ := hphase
    rw [blockingTransaction, hp]
    rfl
  · exact .of_block_quiet rfl (by simp [pcs, map_rs_modify (measureStore_rs _)]) (.inl rfl)

/-- Every step, by the agent that moves. -/
theorem step_traffic {s t : State} (h : step s = .next t) : Traffic s t := by
  obtain ⟨-, rest, rfl | ⟨d, rfl⟩ | ⟨b, c, h⟩ | ⟨i, hs, ht, hw, h⟩ | ⟨p, b, hs, h⟩ | ⟨v, rfl⟩ | ⟨k, q, h⟩ | ⟨B, hB, h⟩⟩ :=
    step_next h
  · exact .of_same rfl rfl rfl
  · exact .of_same rfl rfl rfl
  · exact complete_traffic h
  · exact exec_traffic hs ht hw h
  · rw [constructSensor_next h]
    refine ⟨fun _ _ => .inl, fun k r hr => ?_, fun _ => .inr ∘ .inl⟩
    rw [pcs, List.map_append, List.getElem?_append] at hr
    split at hr
    · exact .inr (.inl hr)
    · obtain ⟨S, hS, rfl⟩ := List.mem_map.mp (List.mem_of_getElem? hr)
      obtain rfl := List.mem_singleton.mp hS
      exact .inl fun _ _ => trivial
  · exact .of_same rfl rfl rfl
  · obtain ⟨r, rfl⟩ := deriveQuantity_next h
    exact .of_same rfl rfl rfl
  · exact microStep_traffic hB h

end Sys2Proof.Proofs
end

section
/-! PROOFS. Under SingleOwner a sensor polls its own transaction; a blocking operation does so by itself (20_memory R79,
70_reset_and_hazards R314). -/

namespace Sys2Proof.Proofs

open Sys2Proof.Machine Sys2Proof.Laws Sys2Proof.Safety

/-- Outside a cycle a sensor waits for no transaction. -/
theorem restingPc_of_not_inCycle {S : Sensor} (h : inCycle S ≠ true) : RestingPc S.rs := by
  intro k tr
  cases hr : S.rs with
  | Idle | Complete | Error => trivial
  | StartConversion | WaitConversion | RequestData | WaitData => simp [inCycle, terminal, hr] at h

/-- What a blocking operation waits for depends on its sensor's profile only. -/
theorem blockingTransaction_congr {k : Nat} {S S' : Sensor} (h : S'.profile = S.profile) (ph : Phase) (tr : Transaction) :
    blockingTransaction k S' ph tr ↔ blockingTransaction k S ph tr := by
  cases ph <;> simp [blockingTransaction, h]

/-- A step keeps the profile and the bus of a sensor. -/
theorem step_profile_bus {k : Nat} {s t : State} {S S' : Sensor} (h : step s = .next t) (hS : s.sensors[k]? = some S)
    (hS' : t.sensors[k]? = some S') : S'.profile = S.profile ∧ S'.bus = S.bus := by
  obtain ⟨hp, hb, -⟩ := (step_change h hS hS').identity
  exact ⟨hp, hb⟩

/-- A transaction that sensor `k` itself brings onto a bus is the one its pc waits for: a tick's by its effect, and a
blocking operation does not run inside a cycle. -/
theorem Issued.phaseTransaction {k b : Nat} {s t : State} {tr : Transaction} {S' : Sensor} (h : Issued s t b tr)
    (hm : mover s = some k) (hno : NoInitInsideCycle k t) (hS' : t.sensors[k]? = some S') :
    Safety.phaseTransaction k S'.rs tr := by
  cases h with
  | byHost _ _ hpc => exact hpc k hm _ (pcs_of hS')
  | byBlock B S hm' _ _ hB _ _ =>
    have hk : B.sensor = k := Option.some.inj (hm'.symm.trans hm)
    exact restingPc_of_not_inCycle (fun hc => hno S' hS' hc ⟨B, hB, hk⟩) k tr

/-- One step keeps a sensor at its own transaction. -/
theorem step_ownTransaction {k : Nat} {s t : State} (hs : MachineInv s) (ho : OwnTransaction k s) (h : step s = .next t)
    (hsingle : SingleOwner k s t) (hno : NoInitInsideCycle k t) : OwnTransaction k t := by
  rintro S' T' tr ⟨hS', hT'⟩ hfly
  have hflight := (step_traffic h).issue S'.bus tr (flight_eq_some_iff.mpr ⟨T', hT', hfly⟩)
  obtain hrest | hkept | ⟨hm, hdone⟩ := (step_traffic h).pc k _ (pcs_of hS')
  · exact hrest k tr
  · -- the pc has not moved
    obtain ⟨S, hS, hrs⟩ : ∃ S, s.sensors[k]? = some S ∧ S.rs = S'.rs := by simpa [pcs] using hkept
    obtain ⟨-, hbus⟩ := step_profile_bus h hS hS'
    obtain ⟨T, hT⟩ : ∃ T, s.buses[S.bus]? = some T :=
      ⟨_, List.getElem?_eq_getElem (hs.sensors S (List.mem_of_getElem? hS)).bus⟩
    rw [hbus, flight_of hT] at hflight
    obtain hold | ⟨hfree, hissue⟩ := hflight
    · rw [← hrs]
      exact ho S T tr ⟨hS, hT⟩ hold
    · by_cases hcycle : inCycle S' = true
      · have hm : mover s = some k :=
          hsingle S T S' T' ⟨hS, hT⟩ ⟨hS', hT'⟩ (.inl (by rwa [inCycle, hrs])) hfree (by simp [hfly])
        exact hissue.phaseTransaction hm hno hS'
      · exact restingPc_of_not_inCycle hcycle k tr
  · -- the pc has moved, which needs a bus with nothing in flight
    obtain ⟨S, T, ⟨hS, hT⟩, -⟩ := id hdone
    obtain ⟨-, hbus⟩ := step_profile_bus h hS hS'
    rw [hbus, hdone.flight_none hs hS] at hflight
    obtain hold | ⟨-, hissue⟩ := hflight
    · cases hold
    · exact hissue.phaseTransaction hm hno hS'

/-- One step keeps a blocking operation at its own transaction. -/
theorem step_blockingOwnTransaction {s t : State} (hs : MachineInv s) (ho : BlockingOwnTransaction s)
    (h : step s = .next t) : BlockingOwnTransaction t := by
  rintro B S' T' tr hB ⟨hS', hT'⟩ hfly
  obtain hold | ⟨-, hissue⟩ := (step_traffic h).issue S'.bus tr (flight_eq_some_iff.mpr ⟨T', hT', hfly⟩)
  · obtain hrest | hkept | hdone := (step_traffic h).phase B hB
    · exact hrest _ _ _
    · obtain ⟨S, hS, -⟩ := hs.blocking B hkept
      obtain ⟨hp, hbus⟩ := step_profile_bus h hS hS'
      rw [hbus] at hold
      obtain ⟨T, hT, hin⟩ := flight_eq_some_iff.mp hold
      exact (blockingTransaction_congr hp _ _).mpr (ho B S T tr hkept ⟨hS, hT⟩ hin)
    · obtain ⟨S, T, ⟨hS, hT⟩, -⟩ := id hdone
      obtain ⟨-, hbus⟩ := step_profile_bus h hS hS'
      rw [hbus, hdone.flight_none hs hS] at hold
      cases hold
  · cases hissue with
    | byHost _ ht _ => rw [ht] at hB; cases hB
    | byBlock B' S _ hS _ hB' _ hown =>
      obtain rfl : B = B' := Option.some.inj (hB.symm.trans hB')
      obtain ⟨hp, -⟩ := step_profile_bus h hS hS'
      exact (blockingTransaction_congr hp _ _).mpr (hown hs.blocking)

/-- While a blocking operation runs, only it issues. -/
theorem step_issue_of_blocking {s t : State} {B : Blocking} {b : Nat} {tr : Transaction} (hB : s.blk = some B)
    (h : step s = .next t) (hfree : flight s b = none) (hfly : flight t b = some tr) :
    ∃ S, s.sensors[B.sensor]? = some S ∧ S.bus = b ∧ addressedBy B.sensor S tr := by
  obtain hold | ⟨-, hissue⟩ := (step_traffic h).issue b tr hfly
  · rw [hfree] at hold
    cases hold
  · cases hissue with
    | byHost hs _ _ => rw [hs] at hB; cases hB
    | byBlock B' S hm hS hb _ haddr _ =>
      rw [mover, hB] at hm
      rw [Option.some.inj hm]
      exact ⟨S, hS, hb, haddr⟩

/-- Settles O30: what a step does to the transactions in flight is said by `step_traffic`. -/
theorem ownTransactionKept : Obligations.OwnTransactionKept := by
  refine ⟨fun k s t => step_ownTransaction, fun s t => step_blockingOwnTransaction,
    fun s t B b T T' tr hB h hT hT' hfree hfly => ?_⟩
  exact step_issue_of_blocking hB h ((flight_of hT).trans hfree) (flight_eq_some_iff.mpr ⟨T', hT', hfly⟩)

end Sys2Proof.Proofs
end

section
/-! PROOFS. The decoder and the encoder undo each other, on byte calls and on frames (30_encoding R100, R102, R108, R110). -/

namespace Sys2Proof.Proofs

open Sys2Proof.Machine Sys2Proof.Laws Sys2Proof.Safety

/-- A word is the operand of its two bytes. -/
theorem operand16_extract (w : U16) : operand16 (w.extractLsb' 8 8) (w.extractLsb' 0 8) = w :=
  BitVec.extractLsb'_append_extractLsb'

/-- The bytes of an operand are those it was read from. -/
theorem bytes16_operand16 (a b : Byte) : bytes16 (operand16 a b) = [a, b] := by
  rw [bytes16, operand16, BitVec.extractLsb'_append_eq_left, BitVec.extractLsb'_append_eq_right]

/-- A double word is the operand of its four bytes. -/
theorem operand32_extract (u : U32) :
    operand32 (u.extractLsb' 24 8) (u.extractLsb' 16 8) (u.extractLsb' 8 8) (u.extractLsb' 0 8) = u := by
  have hhi : (u.extractLsb' 24 8 ++ u.extractLsb' 16 8 : U16) = u.extractLsb' 16 16 :=
    BitVec.extractLsb'_append_extractLsb'_eq_extractLsb' rfl
  have hlo : (u.extractLsb' 8 8 ++ u.extractLsb' 0 8 : U16) = u.extractLsb' 0 16 :=
    BitVec.extractLsb'_append_extractLsb'_eq_extractLsb' rfl
  rw [operand32, hhi, hlo]
  exact BitVec.extractLsb'_append_extractLsb'

/-- The bytes of a long operand are those it was read from. -/
theorem bytes32_operand32 (a b c d : Byte) : bytes32 (operand32 a b c d) = [a, b, c, d] := by
  have hhi (n : Nat) : (operand32 a b c d).extractLsb' (16 + n) 8 = (operand16 a b).extractLsb' n 8 :=
    (BitVec.extractLsb'_append_eq_of_le (Nat.le_add_right 16 n)).trans (by rw [Nat.add_sub_cancel_left]; rfl)
  have hlo (n : Nat) (hn : n + 8 ≤ 16) : (operand32 a b c d).extractLsb' n 8 = (operand16 c d).extractLsb' n 8 :=
    BitVec.extractLsb'_append_eq_of_add_le hn
  rw [bytes32, hhi 8, hhi 0, hlo 8 (by decide), hlo 0 (by decide)]
  exact congrArg₂ (· ++ ·) (bytes16_operand16 a b) (bytes16_operand16 c d)

/-! ## From the encoder to the decoder -/

/-- A format with one word operand, read from the word's bytes. -/
theorem decodeOperands2_bytes16 (op : Byte) (w : U16) (rest : List Byte) (f : U16 → Instr) :
    decodeOperands2 op (bytes16 w ++ rest) (fun a b => f (operand16 a b)) = .ok (f w, rest) := by
  simp [decodeOperands2, bytes16, operand16_extract]

/-- A format with two word operands, read from the words' bytes. -/
theorem decodeOperands4_bytes16 (op : Byte) (w v : U16) (rest : List Byte) (f : U16 → U16 → Instr) :
    decodeOperands4 op (bytes16 w ++ bytes16 v ++ rest) (fun a b c d => f (operand16 a b) (operand16 c d)) =
      .ok (f w v, rest) := by
  simp [decodeOperands4, bytes16, operand16_extract]

/-- A format with one double-word operand, read from its bytes. -/
theorem decodeOperands4_bytes32 (op : Byte) (u : U32) (rest : List Byte) (f : U32 → Instr) :
    decodeOperands4 op (bytes32 u ++ rest) (fun a b c d => f (operand32 a b c d)) = .ok (f u, rest) := by
  simp [decodeOperands4, bytes32, operand32_extract]

/-- The command byte of a PROM read as a number (30_encoding R110). -/
theorem promCommand_toNat {w : Nat} (hw : w < 8) : (0xA0 + 2 * BitVec.ofNat 8 w : Byte).toNat = 0xA0 + 2 * w := by
  bv_omega

/-- The command byte of a PROM read, on any bus. -/
theorem decodeFrame_promCommand (b : Nat) {w : Nat} (hw : w < 8) (stop : Bool) :
    decodeFrame b ⟨0x77, 0xA0 + 2 * BitVec.ofNat 8 w, stop⟩ = .ok (.tPromRead b w stop) := by
  interval_cases w <;> simp [decodeFrame, decodeTempCommand]

/-- A frame that the device's command map has leaves nothing. -/
theorem decode_frame_of {b : Nat} {f : Frame} {i : Instr} (h : decodeFrame b f = .ok i) :
    decode (.frame b f) = .ok (i, []) := by
  rw [decode, h]

/-- Settles O6, row by row: a row's operand bytes are read back by its format (30_encoding R100, R110). -/
theorem decodeInvertsEncode : Obligations.DecodeInvertsEncode := by
  intro i hw
  cases i
  case advance | tick | query | reset | getValue | init | isInit | readBlocking => exact fun _ => rfl
  case decode16 | decode24 => exact fun _ => rfl
  case decode32 w v => exact fun rest => decodeOperands4_bytes16 0x12 w v rest .decode32
  case split32 u => exact fun rest => decodeOperands4_bytes32 0x13 u rest .split32
  case bitcastF32 u => exact fun rest => decodeOperands4_bytes32 0x14 u rest .bitcastF32
  case bitcastU32 f => exact fun rest => decodeOperands4_bytes32 0x15 f.bits rest (.bitcastU32 ⟨·⟩)
  case fieldEquip w => exact fun rest => decodeOperands2_bytes16 0x18 w rest .fieldEquip
  case fieldPlace w => exact fun rest => decodeOperands2_bytes16 0x19 w rest .fieldPlace
  case fieldFile w => exact fun rest => decodeOperands2_bytes16 0x1A w rest .fieldFile
  case fieldCode w v => exact fun rest => decodeOperands4_bytes16 0x1B w v rest .fieldCode
  case fieldMode w => exact fun rest => decodeOperands2_bytes16 0x1C w rest .fieldMode
  case fieldDate w => exact fun rest => decodeOperands2_bytes16 0x1D w rest .fieldDate
  case tPromRead b w stop => exact decode_frame_of (decodeFrame_promCommand b (of_decide_eq_true hw) stop)
  case tReset | tConvert | tAdcRead => rfl
  case pMeasure | pMemCust0 | pMemCust1 | pMemScaling0 | pMemPminHi | pMemPminLo | pMemPmaxHi | pMemPmaxLo => rfl

/-! ## From the decoder to the encoder -/

/-- `i` is what the encoder writes as the opcode `op` and bytes of `bs`, with `left` after them; the number beside the bytes
is `k` unless there are operands (log 10). -/
def Reencodes (k : Nat) (op : Byte) (bs : List Byte) (i : Instr) (left : List Byte) : Prop :=
  ∃ k' operands, encode i = .bytes k' (op :: operands) ∧ bs = operands ++ left ∧ (k' = k ∨ operands ≠ [])

/-- A host operation. -/
theorem reencodes_of_host {k : Nat} {op : Byte} {bs left : List Byte} {i j : Instr} (he : encode j = .bytes k [op])
    (h : (.ok (j, bs) : Decoded) = .ok (i, left)) : Reencodes k op bs i left := by
  cases h
  exact ⟨k, [], he, rfl, .inl rfl⟩

/-- A format with two operand bytes. -/
theorem reencodes_of_operands2 {k : Nat} {op : Byte} {bs left : List Byte} {i : Instr} {f : Byte → Byte → Instr}
    (he : ∀ a b, encode (f a b) = .bytes 0 [op, a, b]) (h : decodeOperands2 op bs f = .ok (i, left)) :
    Reencodes k op bs i left := by
  unfold decodeOperands2 at h
  split at h
  · next a b rest => cases h; exact ⟨0, [a, b], he a b, rfl, .inr nofun⟩
  · cases h

/-- A format with three operand bytes. -/
theorem reencodes_of_operands3 {k : Nat} {op : Byte} {bs left : List Byte} {i : Instr} {f : Byte → Byte → Byte → Instr}
    (he : ∀ a b c, encode (f a b c) = .bytes 0 [op, a, b, c]) (h : decodeOperands3 op bs f = .ok (i, left)) :
    Reencodes k op bs i left := by
  unfold decodeOperands3 at h
  split at h
  · next a b c rest => cases h; exact ⟨0, [a, b, c], he a b c, rfl, .inr nofun⟩
  · cases h

/-- A format with four operand bytes. -/
theorem reencodes_of_operands4 {k : Nat} {op : Byte} {bs left : List Byte} {i : Instr}
    {f : Byte → Byte → Byte → Byte → Instr} (he : ∀ a b c d, encode (f a b c d) = .bytes 0 [op, a, b, c, d])
    (h : decodeOperands4 op bs f = .ok (i, left)) : Reencodes k op bs i left := by
  unfold decodeOperands4 at h
  split at h
  · next a b c d rest => cases h; exact ⟨0, [a, b, c, d], he a b c d, rfl, .inr nofun⟩
  · cases h

/-- What an opcode decodes to is encoded with that opcode, row by row of 30_encoding R102. -/
theorem decodeOpcode_reencodes {k : Nat} {op : Byte} {bs left : List Byte} {i : Instr}
    (h : decodeOpcode k op bs = .ok (i, left)) : Reencodes k op bs i left := by
  unfold decodeOpcode at h
  split at h
  case h_21 => cases h
  all_goals obtain ⟨-, rfl⟩ := BitVec.toNat_eq_nat.mp ‹op.toNat = _›
  case h_1 | h_2 | h_3 | h_4 | h_5 | h_6 | h_7 | h_8 => exact reencodes_of_host rfl h
  case h_9 | h_15 | h_16 | h_17 | h_19 | h_20 => exact reencodes_of_operands2 (by simp [encode, bytes16_operand16]) h
  case h_10 => exact reencodes_of_operands3 (fun _ _ _ => rfl) h
  case h_11 | h_18 => exact reencodes_of_operands4 (by simp [encode, bytes16_operand16]) h
  case h_12 | h_13 | h_14 => exact reencodes_of_operands4 (by simp [encode, bytes32_operand32]) h

/-- The command bytes that `T_PROM_READ` matches (30_encoding R110). -/
theorem promCommand_of_mask {cmd : Byte} (h : cmd &&& 0xF1 = 0xA0) :
    cmd.toNat = 0xA0 + 2 * (cmd.extractLsb' 1 3).toNat := by
  have hmask : cmd.toNat &&& 0xF1 = 0xA0 := congrArg BitVec.toNat h
  have hlow : cmd.toNat % 2 = 0 := by
    have hand := Nat.and_mod_two_pow (a := cmd.toNat) (b := 0xF1) (n := 1)
    rw [hmask] at hand
    simpa [Nat.and_one_is_mod] using hand.symm
  have hhigh : cmd.toNat / 16 % 16 = 10 := by
    have hand := Nat.and_div_two_pow (a := cmd.toNat) (b := 0xF1) (n := 4)
    rw [hmask] at hand
    exact (Nat.and_two_pow_sub_one_eq_mod _ 4).symm.trans hand.symm
  have := cmd.isLt
  rw [BitVec.extractLsb'_toNat, Nat.shiftRight_eq_div_pow]
  omega

/-- A frame's command of the TEMP device is the one its row is encoded with. -/
theorem decodeTempCommand_reencodes {b : Nat} {cmd : Byte} {stop : Bool} {i : Instr}
    (h : decodeTempCommand b cmd stop = .ok i) : encode i = .frame b ⟨0x77, cmd, stop⟩ := by
  unfold decodeTempCommand at h
  split_ifs at h with h1 h2 h3 h4
  · cases h; rw [h1]; rfl
  · cases h; rw [h2]; rfl
  · cases h; rw [h3]; rfl
  · cases h
    have hcmd : cmd = 0xA0 + 2 * BitVec.ofNat 8 (cmd.extractLsb' 1 3).toNat :=
      BitVec.eq_of_toNat_eq ((promCommand_of_mask h4).trans (promCommand_toNat (BitVec.isLt _)).symm)
    rw [encode, ← hcmd]

/-- A frame's command of the PRES device is the one its row is encoded with. -/
theorem decodePresCommand_reencodes {b : Nat} {cmd : Byte} {stop : Bool} {i : Instr}
    (h : decodePresCommand b cmd stop = .ok i) : encode i = .frame b ⟨0x40, cmd, stop⟩ := by
  unfold decodePresCommand at h
  split at h
  case h_9 => cases h
  all_goals
    obtain ⟨-, rfl⟩ := BitVec.toNat_eq_nat.mp ‹cmd.toNat = _›
    cases h
    rfl

/-- A frame that decodes is the one its row is encoded with. -/
theorem decodeFrame_reencodes {b : Nat} {f : Frame} {i : Instr} (h : decodeFrame b f = .ok i) : encode i = .frame b f := by
  obtain ⟨addr, cmd, stop⟩ := f
  unfold decodeFrame at h
  split_ifs at h with htemp hpres
  · exact (decodeTempCommand_reencodes h).trans (by rw [← htemp])
  · exact (decodePresCommand_reencodes h).trans (by rw [← hpres])

/-- A frame call that decodes leaves nothing. -/
theorem decode_frame_ok {b : Nat} {f : Frame} {i : Instr} {left : List Byte} (h : decode (.frame b f) = .ok (i, left)) :
    decodeFrame b f = .ok i ∧ left = [] := by
  rw [decode] at h
  split at h
  · next j hj => cases h; exact ⟨hj, rfl⟩
  · cases h

/-- Settles O7: byte calls by the rows of the opcode table, frames by the two devices' command maps. -/
theorem decodedCallsReencode : Obligations.DecodedCallsReencode := by
  refine ⟨fun k bs left i h => ⟨decode_wellFormed h, ?_⟩, fun b f left i h => ⟨decode_wellFormed h, ?_⟩⟩
  · cases bs with
    | nil => cases h
    | cons op bs =>
      obtain ⟨k', operands, henc, rfl, hk⟩ := decodeOpcode_reencodes h
      exact ⟨k', op :: operands, henc, rfl, hk.imp_right fun hne => by simpa using List.length_pos_of_ne_nil hne⟩
  · obtain ⟨hframe, hleft⟩ := decode_frame_ok h
    exact ⟨decodeFrame_reencodes hframe, hleft⟩

end Sys2Proof.Proofs
end

section
/-! PROOFS. What the decoder refuses, what a step does with a host call, and what a bus command row issues (30_encoding R102,
R108, R110, R126, R128). -/

namespace Sys2Proof.Proofs

open Sys2Proof.Machine Sys2Proof.Laws Sys2Proof.Safety

/-- A step takes the host call at the head of the script and runs what it decodes to. -/
theorem step_host {s : State} {c : Call} {rest : List Line} {i : Instr} {left : List Byte} (hF : s.FAULT = false)
    (hb : s.blk = none) (hs : s.script = .host c :: rest) (hd : decode c = .ok (i, left)) :
    step s = exec i { s with script := scriptAfter c left rest } := by
  rw [step_takeLine hF hb hs, takeLine, hd]

/-- A step refuses the host call at the head of the script where it does not decode. -/
theorem step_host_undecodable {s : State} {c : Call} {rest : List Line} {e : DecodeError} (hF : s.FAULT = false)
    (hb : s.blk = none) (hs : s.script = .host c :: rest) (hd : decode c = .error e) :
    step s = .refused (.undecodable e) := by
  rw [step_takeLine hF hb hs, takeLine, hd]

/-- Settles O8: `step_host` at the three forms of call; the script that is left is `scriptAfter`. -/
theorem stepRunsDecoded : Obligations.StepRunsDecoded := by
  intro s rest hF hb
  exact ⟨fun k bs i => step_host hF hb, fun k bs i b left => step_host hF hb, fun b f i => step_host hF hb⟩

/-- An opcode outside the table is reserved (30_encoding R102, R126). -/
theorem decodeOpcode_reserved (k : Nat) {op : Byte} (bs : List Byte)
    (hop : op.toNat ∉ [0x01, 0x02, 0x03, 0x04, 0x05, 0x06, 0x07, 0x08, 0x10, 0x11, 0x12, 0x13, 0x14, 0x15, 0x18, 0x19, 0x1A,
      0x1B, 0x1C, 0x1D]) : decodeOpcode k op bs = .error (.reservedOpcode op) := by
  unfold decodeOpcode
  split
  case h_21 => rfl
  all_goals exact absurd (by rw [‹op.toNat = _›]; decide) hop

/-- A format with two operand bytes refuses fewer. -/
theorem decodeOperands2_missing (op : Byte) {bs : List Byte} (f : Byte → Byte → Instr) (h : bs.length < 2) :
    decodeOperands2 op bs f = .error (.missingOperands op) := by
  unfold decodeOperands2
  split
  · exact absurd h (by simp)
  · rfl

/-- A format with three operand bytes refuses fewer. -/
theorem decodeOperands3_missing (op : Byte) {bs : List Byte} (f : Byte → Byte → Byte → Instr) (h : bs.length < 3) :
    decodeOperands3 op bs f = .error (.missingOperands op) := by
  unfold decodeOperands3
  split
  · exact absurd h (by simp)
  · rfl

/-- A format with four operand bytes refuses fewer. -/
theorem decodeOperands4_missing (op : Byte) {bs : List Byte} (f : Byte → Byte → Byte → Byte → Instr) (h : bs.length < 4) :
    decodeOperands4 op bs f = .error (.missingOperands op) := by
  unfold decodeOperands4
  split
  · exact absurd h (by simp)
  · rfl

/-- An opcode with fewer bytes after it than its format has. -/
theorem decodeOpcode_missing (k : Nat) {op : Byte} {bs : List Byte} (h : bs.length < operandBytes op) :
    decodeOpcode k op bs = .error (.missingOperands op) := by
  unfold operandBytes at h
  split at h
  case h_13 => exact absurd h (Nat.not_lt_zero _)
  all_goals simp only [decodeOpcode, ‹op.toNat = _›]
  case h_7 => exact decodeOperands3_missing op _ h
  case h_1 | h_2 | h_3 | h_4 | h_5 | h_6 => exact decodeOperands2_missing op _ h
  case h_8 | h_9 | h_10 | h_11 | h_12 => exact decodeOperands4_missing op _ h

/-- A command byte outside the map of the TEMP device (20_memory R62). -/
theorem decodeTempCommand_unknown (b : Nat) {cmd : Byte} (stop : Bool)
    (hcmd : cmd.toNat ∉ [0x1E, 0x48, 0x00, 0xA0, 0xA2, 0xA4, 0xA6, 0xA8, 0xAA, 0xAC, 0xAE]) :
    decodeTempCommand b cmd stop = .error (.unknownCommand 0x77 cmd) := by
  unfold decodeTempCommand
  split_ifs with h1 h2 h3 h4
  · exact absurd (by rw [h1]; decide) hcmd
  · exact absurd (by rw [h2]; decide) hcmd
  · exact absurd (by rw [h3]; decide) hcmd
  · have hprom := promCommand_of_mask h4
    have hw := (cmd.extractLsb' 1 3).isLt
    simp only [List.mem_cons, List.not_mem_nil, or_false] at hcmd
    omega
  · rfl

/-- A command byte outside the map of the PRES device (20_memory R63). -/
theorem decodePresCommand_unknown (b : Nat) {cmd : Byte} (stop : Bool)
    (hcmd : cmd.toNat ∉ [0xAC, 0x00, 0x01, 0x12, 0x13, 0x14, 0x15, 0x16]) :
    decodePresCommand b cmd stop = .error (.unknownCommand 0x40 cmd) := by
  unfold decodePresCommand
  split
  case h_9 => rfl
  all_goals exact absurd (by rw [‹cmd.toNat = _›]; decide) hcmd

/-- A frame that the decoder refuses. -/
theorem decode_frame_error {b : Nat} {f : Frame} {e : DecodeError} (h : decodeFrame b f = .error e) :
    decode (.frame b f) = .error e := by
  rw [decode, h]

/-- Settles O5: the opcodes, the operands, the addresses and the two command maps in turn. -/
theorem reservedCodesRefused : Obligations.ReservedCodesRefused := by
  refine ⟨fun k op bs hop => ?_, fun k op bs => decodeOpcode_missing k, fun b f htemp hpres => ?_, fun b cmd stop hcmd => ?_,
    fun b cmd stop hcmd => ?_⟩
  · have hd : decode (.bytes k (op :: bs)) = .error (.reservedOpcode op) := decodeOpcode_reserved k bs hop
    exact ⟨hd, fun s rest hF hb hs => step_host_undecodable hF hb hs hd⟩
  · exact decode_frame_error (by rw [decodeFrame, if_neg htemp, if_neg hpres])
  · exact decode_frame_error (decodeTempCommand_unknown b stop hcmd)
  · exact decode_frame_error (decodePresCommand_unknown b stop hcmd)

/-- Settles O4: each word is read by its row of the tables. -/
theorem wordsDecode : Obligations.WordsDecode :=
  ⟨rfl, rfl, rfl, rfl, rfl, rfl, rfl, rfl, rfl, rfl, rfl⟩

/-- A bus command row on a free bus puts its frame in flight, in the statements' words. -/
theorem issueFrame_justIssued {b : Nat} {s : State} {T : Transport} (hT : s.buses[b]? = some T) (hf : T.inflight = none)
    (f : Frame) : issueFrame b f s =
      .next { withBus b (justIssued (.write f.addr [f.cmd] f.stop) s) s with ret := .none, draws := s.draws + 1 } :=
  issueFrame_free f hT hf

/-- Settles O40: each row is `issueFrame` of its frame. -/
theorem busCommandsIssueFrames : Obligations.BusCommandsIssueFrames := by
  intro s b stop T hT hf
  have hsent := issueFrame_justIssued hT hf
  exact ⟨hsent ⟨0x77, 0x1E, stop⟩, hsent ⟨0x77, 0x48, stop⟩, hsent ⟨0x77, 0x00, stop⟩,
    fun w hw => ⟨_, promCommand_toNat hw, hsent ⟨0x77, _, stop⟩⟩, hsent ⟨0x40, 0xAC, stop⟩, hsent ⟨0x40, 0x00, stop⟩,
    hsent ⟨0x40, 0x01, stop⟩, hsent ⟨0x40, 0x12, stop⟩, hsent ⟨0x40, 0x13, stop⟩, hsent ⟨0x40, 0x14, stop⟩,
    hsent ⟨0x40, 0x15, stop⟩, hsent ⟨0x40, 0x16, stop⟩⟩

end Sys2Proof.Proofs
end

section
/-! PROOFS. The register codec: what its operations return, as bit patterns and as numbers, and its laws (40_codec R140 to
R158). -/

namespace Sys2Proof.Proofs

open Sys2Proof.Machine

/-! ## Concatenations and slices (40_codec R160) -/

/-- `hi ++ lo` is the shift left and OR at the result's width. -/
theorem append_eq_shiftLeft_or {m n : Nat} (hi : BitVec m) (lo : BitVec n) :
    hi ++ lo = (hi.setWidth (m + n) <<< n) ||| lo.setWidth (m + n) := by
  rw [← BitVec.setWidth_append_eq_shiftLeft_setWidth_or, BitVec.setWidth_eq]

/-- The OR meets no overlapping bits, so it is an addition. -/
theorem toNat_append_eq_add {m n : Nat} (hi : BitVec m) (lo : BitVec n) :
    (hi ++ lo).toNat = 2 ^ n * hi.toNat + lo.toNat := by
  rw [BitVec.toNat_append, ← Nat.shiftLeft_add_eq_or_of_lt lo.isLt, Nat.shiftLeft_eq, Nat.mul_comm]

/-- A slice is a quotient cut to the slice's width. -/
theorem toNat_extractLsb'_eq_div_mod {w : Nat} (start len : Nat) (x : BitVec w) :
    (x.extractLsb' start len).toNat = x.toNat / 2 ^ start % 2 ^ len := by
  rw [BitVec.extractLsb'_toNat, Nat.shiftRight_eq_div_pow]

/-! ## The byte unpackers and the word reassembler (R140 to R145) -/

theorem decode16_eq_shiftLeft_or (hi lo : Byte) : decode16 hi lo = (hi.setWidth 16 <<< 8) ||| lo.setWidth 16 :=
  append_eq_shiftLeft_or hi lo

theorem decode24_eq_shiftLeft_or (b0 b1 b2 : Byte) :
    decode24 b0 b1 b2 = (b0.setWidth 24 <<< 16) ||| (b1.setWidth 24 <<< 8) ||| b2.setWidth 24 := by
  rw [← BitVec.setWidth_eq (decode24 b0 b1 b2)]
  exact BitVec.setWidth_append_append_eq_shiftLeft_setWidth_or

theorem decode32_eq_shiftLeft_or (hi lo : U16) : decode32 hi lo = (hi.setWidth 32 <<< 16) ||| lo.setWidth 32 :=
  append_eq_shiftLeft_or hi lo

@[simp] theorem decode16_toNat (hi lo : Byte) : (decode16 hi lo).toNat = 256 * hi.toNat + lo.toNat :=
  toNat_append_eq_add hi lo

@[simp] theorem decode24_toNat (b0 b1 b2 : Byte) :
    (decode24 b0 b1 b2).toNat = 65536 * b0.toNat + 256 * b1.toNat + b2.toNat := by
  have hlast : (decode24 b0 b1 b2).toNat = 256 * (decode16 b0 b1).toNat + b2.toNat := toNat_append_eq_add (b0 ++ b1) b2
  rw [hlast, decode16_toNat]
  omega

@[simp] theorem decode32_toNat (hi lo : U16) : (decode32 hi lo).toNat = 65536 * hi.toNat + lo.toNat :=
  toNat_append_eq_add hi lo

/-- The upper and the lower byte of an unpacked word. -/
theorem decode16_div_mod (hi lo : Byte) :
    (decode16 hi lo).toNat / 256 = hi.toNat ∧ (decode16 hi lo).toNat % 256 = lo.toNat := by
  have := lo.isLt
  rw [decode16_toNat]
  omega

/-- The upper and the lower half of a reassembled double word. -/
theorem decode32_div_mod (hi lo : U16) :
    (decode32 hi lo).toNat / 65536 = hi.toNat ∧ (decode32 hi lo).toNat % 65536 = lo.toNat := by
  have := lo.isLt
  rw [decode32_toNat]
  omega

/-- The upper 16 bits of an ADC count are the word of its first two bytes. -/
theorem decode24_div (b0 b1 b2 : Byte) : (decode24 b0 b1 b2).toNat / 256 = (decode16 b0 b1).toNat := by
  have := b2.isLt
  rw [decode24_toNat, decode16_toNat]
  omega

/-- Four bytes in wire order are one big-endian number. -/
theorem decode32_decode16_toNat (a b c d : Byte) :
    (decode32 (decode16 a b) (decode16 c d)).toNat = ((a.toNat * 256 + b.toNat) * 256 + c.toNat) * 256 + d.toNat := by
  rw [decode32_toNat, decode16_toNat, decode16_toNat]
  omega

/-- Two bytes can be read off the word they were unpacked to. -/
theorem decode16_injective {hi lo hi' lo' : Byte} (h : decode16 hi lo = decode16 hi' lo') : hi = hi' ∧ lo = lo' := by
  obtain ⟨hhi, hlo⟩ := decode16_div_mod hi lo
  obtain ⟨hhi', hlo'⟩ := decode16_div_mod hi' lo'
  rw [h] at hhi hlo
  exact ⟨BitVec.eq_of_toNat_eq (hhi.symm.trans hhi'), BitVec.eq_of_toNat_eq (hlo.symm.trans hlo')⟩

@[simp] theorem split32_decode32 (hi lo : U16) : split32 (decode32 hi lo) = (hi, lo) :=
  Prod.ext BitVec.extractLsb'_append_eq_left BitVec.extractLsb'_append_eq_right

@[simp] theorem decode32_split32 (u : U32) : decode32 (split32 u).1 (split32 u).2 = u :=
  BitVec.extractLsb'_append_extractLsb'

@[simp] theorem split32_fst_toNat (u : U32) : (split32 u).1.toNat = u.toNat / 65536 := by
  have := u.isLt
  refine (toNat_extractLsb'_eq_div_mod 16 16 u).trans ?_
  omega

@[simp] theorem split32_snd_toNat (u : U32) : (split32 u).2.toNat = u.toNat % 65536 :=
  (toNat_extractLsb'_eq_div_mod 0 16 u).trans (by omega)

/-- Settles O34: each unpacker is a concatenation, which is both a shift and OR and a sum. -/
theorem byteUnpackers : Obligations.ByteUnpackers := by
  refine ⟨fun hi lo s => ⟨?_, decode16_toNat hi lo⟩, fun _ _ _ _ => decode16_injective, fun b0 b1 b2 s =>
    ⟨?_, decode24_toNat b0 b1 b2, decode24_div b0 b1 b2⟩⟩
  · rw [← decode16_eq_shiftLeft_or]; rfl
  · rw [← decode24_eq_shiftLeft_or]; rfl

/-- Settles O35: a double word is the concatenation of its two halves. -/
theorem wordReassembler : Obligations.WordReassembler := by
  refine ⟨fun hi lo s => ⟨?_, decode32_toNat hi lo, split32_decode32 hi lo⟩, fun u s => ⟨?_, decode32_split32 u⟩⟩
  · rw [← decode32_eq_shiftLeft_or]; rfl
  · obtain ⟨-, hfst⟩ := BitVec.toNat_eq_nat.mp (split32_fst_toNat u)
    obtain ⟨-, hsnd⟩ := BitVec.toNat_eq_nat.mp (split32_snd_toNat u)
    rw [← hfst, ← hsnd]; rfl

/-! ## The reinterpretation (R146 to R148) -/

@[simp] theorem bitcastU32_bitcastF32 (u : U32) : bitcastU32 (bitcastF32 u) = u := rfl

@[simp] theorem bitcastF32_bitcastU32 (f : F32) : bitcastF32 (bitcastU32 f) = f := rfl

/-- Settles O36: the two casts are inverse, and so are the split and the reassembly between them. -/
theorem floatReinterpretation : Obligations.FloatReinterpretation := by
  refine ⟨fun u s => ⟨rfl, bitcastU32_bitcastF32 u⟩, fun f s => rfl,
    fun _ _ h => Function.LeftInverse.injective bitcastU32_bitcastF32 h, fun f => ?_⟩
  rw [decode32_split32, bitcastF32_bitcastU32]

/-! ## The fields (R150 to R155) -/

/-! ### The customer-id words -/

@[simp] theorem fieldEquip_toNat (w : U16) : (fieldEquip w).toNat = w.toNat / 1024 := by
  have := w.isLt
  refine (toNat_extractLsb'_eq_div_mod 10 6 w).trans ?_
  omega

@[simp] theorem fieldPlace_toNat (w : U16) : (fieldPlace w).toNat = w.toNat % 512 :=
  (toNat_extractLsb'_eq_div_mod 0 9 w).trans (by omega)

/-- Equipment code 63 is that of the words whose top six bits are all set. -/
theorem fieldEquip_eq_63_iff (w : U16) : fieldEquip w = 63 ↔ 0xFC00 ≤ w.toNat := by
  have := w.isLt
  rw [← BitVec.toNat_inj, fieldEquip_toNat]
  change w.toNat / 1024 = 63 ↔ _
  omega

/-- The two fields of a customer-id word and the bit between them make up the word. -/
theorem fieldEquip_bit_fieldPlace (w : U16) :
    (fieldEquip w).toNat * 1024 + (w.getLsbD 9).toNat * 512 + (fieldPlace w).toNat = w.toNat := by
  have hbit : (w.getLsbD 9).toNat = w.toNat / 512 % 2 := Nat.toNat_testBit w.toNat 9
  rw [hbit, fieldEquip_toNat, fieldPlace_toNat]
  omega

/-- The upper word's bits stand 16 places higher in the identity code. -/
theorem getLsbD_fieldCode_upper (w0 w1 : U16) (i : Nat) : (fieldCode w0 w1).getLsbD (16 + i) = w0.getLsbD i := by
  refine BitVec.getLsbD_append.trans ?_
  rw [if_neg (by omega), Nat.add_sub_cancel_left]

/-- Settles O38: the fields are slices of the first word, the second word, and the concatenation of both. -/
theorem identityFields : Obligations.IdentityFields := by
  refine ⟨fun w0 s => ⟨?_, fieldEquip_eq_63_iff w0, ?_⟩, fun w1 s => rfl, fun w0 w1 s =>
    ⟨?_, getLsbD_fieldCode_upper w0 w1 9⟩⟩
  · obtain ⟨-, hequip⟩ := BitVec.toNat_eq_nat.mp (fieldEquip_toNat w0)
    rw [← hequip]; rfl
  · obtain ⟨-, hplace⟩ := BitVec.toNat_eq_nat.mp (fieldPlace_toNat w0)
    rw [← hplace]; rfl
  · rw [← decode32_eq_shiftLeft_or]; rfl

/-! ### The scaling word, at the default positions (30_encoding R122; log 16) -/

@[simp] theorem fieldMode_toNat (s0 : U16) : (fieldMode s0).toNat = s0.toNat % 4 :=
  (toNat_extractLsb'_eq_div_mod 0 2 s0).trans (by omega)

theorem fieldYear_eq (s0 : U16) : fieldYear s0 = s0.toNat / 2048 + 2010 := by
  have hslice : (s0.extractLsb' 11 5).toNat = s0.toNat / 2048 := by
    have := s0.isLt
    rw [toNat_extractLsb'_eq_div_mod]
    omega
  exact congrArg (· + 2010) hslice

theorem fieldMonth_eq (s0 : U16) : fieldMonth s0 = s0.toNat / 128 % 16 :=
  toNat_extractLsb'_eq_div_mod 7 4 s0

theorem fieldDay_eq (s0 : U16) : fieldDay s0 = s0.toNat / 4 % 32 :=
  toNat_extractLsb'_eq_div_mod 2 5 s0

/-- Settles O39: the four slices of the scaling word at the default positions (log 16). -/
theorem scalingFields : Obligations.ScalingFields := by
  refine fun s0 s => ⟨?_, ?_⟩
  · obtain ⟨-, hmode⟩ := BitVec.toNat_eq_nat.mp (fieldMode_toNat s0)
    rw [← hmode]; rfl
  · rw [← fieldYear_eq, ← fieldMonth_eq, ← fieldDay_eq]; rfl

/-! ## The laws of the codec (R158) -/

/-- `MemRead` of four cells is their big-endian number (00_scope R14). -/
theorem memRead_four (draw a : Nat) (m : Memory) :
    Memory.memRead draw m a 4 =
      (((Memory.cell draw m a).toNat * 256 + (Memory.cell draw m (a + 1)).toNat) * 256 +
        (Memory.cell draw m (a + 2)).toNat) * 256 + (Memory.cell draw m (a + 3)).toNat := by
  simp only [Memory.memRead, Nat.add_assoc, Nat.reduceAdd]
  omega

/-- Settles O37, law by law of 40_codec R158. -/
theorem codecLaws : Obligations.CodecLaws :=
  ⟨decode16_div_mod, decode32_div_mod, decode32_decode16_toNat,
    fun draw a m => (decode32_decode16_toNat _ _ _ _).trans (memRead_four draw a m).symm, fieldEquip_bit_fieldPlace⟩

end Sys2Proof.Proofs
end

section
/-! SUPPORT. What keeps a sensor sound: one lemma per update a step makes of a sensor. -/

namespace Sys2Proof.Proofs

open Sys2Proof.Machine Sys2Proof.Laws Sys2Proof.Safety

/-- Time that passes. -/
theorem sensorSound_later {n now now' : Nat} {S : Sensor} (h : SensorSound n now S) (hnow : now ≤ now') :
    SensorSound n now' S := by
  obtain ⟨hop, hconv⟩ := h.stamps
  exact { h with stamps := ⟨fun t ht => (hop t ht).trans hnow, fun t ht => (hconv t ht).trans hnow⟩ }

/-- A stamp of the operation timer with this step's sample. -/
theorem sensorSound_stampOp {n now : Nat} {S : Sensor} (h : SensorSound n now S) :
    SensorSound n now { S with tOp := some now } := by
  obtain ⟨-, hconv⟩ := h.stamps
  obtain ⟨-, hwait⟩ := h.timers
  exact { h with stamps := ⟨fun t ht => (Option.some.inj ht).ge, hconv⟩, timers := ⟨fun _ => nofun, hwait⟩ }

/-- A stamp of the conversion timer. -/
theorem sensorSound_stampConv {n now : Nat} {S : Sensor} (h : SensorSound n now S) :
    SensorSound n now { S with tConv := some now } := by
  obtain ⟨hop, -⟩ := h.stamps
  obtain ⟨hpoll, -⟩ := h.timers
  exact { h with stamps := ⟨hop, fun t ht => (Option.some.inj ht).ge⟩, timers := ⟨hpoll, fun _ => nofun⟩ }

/-- A move of the pc of a TEMP sensor to a state whose timer is written. -/
theorem sensorSound_setPc {n now : Nat} {S : Sensor} {r : ReadState} (h : SensorSound n now S) (hp : S.profile = .TEMP)
    (hr : timersWritten { S with rs := r }) : SensorSound n now { S with rs := r } :=
  { h with timers := hr, idle := fun hq => by cases hp.symm.trans hq }

/-- Bytes received, or lost, in the buffer. -/
theorem sensorSound_filled {n now : Nat} {S : Sensor} {m : Memory} (h : SensorSound n now S) (hm : Memory.wf m = true) :
    SensorSound n now { S with buf := m } :=
  { h with buffer := hm }

/-- The reading of a temperature cycle. -/
theorem sensorSound_decodeStore {n now draw : Nat} {S : Sensor} (h : SensorSound n now S) (hp : S.profile = .TEMP) :
    SensorSound n now (decodeStore draw S) :=
  { h with reading := hp }

/-- The reading of READ_BLOCKING. -/
theorem sensorSound_measureStore {n now draw : Nat} {S : Sensor} (h : SensorSound n now S) (hp : S.profile = .PRES) :
    SensorSound n now (measureStore draw S) :=
  { h with reading := hp }

/-- The sensor with calibration word `w` stored. -/
def storeWord (p : Profile) (w : Nat) (v : CalWord) (S : Sensor) : Sensor := { S with cal := Cal.put p w v S.cal }

/-- A calibration word. -/
theorem sensorSound_storeWord {n now : Nat} {S : Sensor} (h : SensorSound n now S) (p : Profile) (w : Nat) (v : CalWord) :
    SensorSound n now (storeWord p w v S) :=
  { h with fields := by cases p <;> exact h.fields }

/-- The end of INIT: whatever it returns, the fields of a PRES sensor are decoded. -/
theorem sensorSound_decodeStoreFields {n now draw : Nat} {S : Sensor} (h : SensorSound n now S) (ok : Bool) :
    SensorSound n now { S with cal := (decodeStoreFields draw S).cal, initOk := ok } :=
  { h with
    fields := by
      intro (hp : S.profile = .PRES) _
      simp [decodeStoreFields, hp] }

end Sys2Proof.Proofs
end

section
/-! SUPPORT. The listed transactions (20_memory R61, R75), and the parts of a state the machine invariant is made of. -/

namespace Sys2Proof.Proofs

open Sys2Proof.Machine Sys2Proof.Laws Sys2Proof.Safety

/-- The command of a calibration word is in its device's map. -/
theorem wordCommand_listed (sensors : List Sensor) {p : Profile} {w : Nat} (hw : w < p.nCal) (stop : Bool) :
    transactionListed sensors (.write p.addr [wordCommand p w] stop) := by
  cases p with
  | TEMP => exact ⟨_, _, rfl, promCommand_listed w hw stop⟩
  | PRES =>
    have hlisted : ∀ w < 7, ∃ i, decodePresCommand 0 (wordCommand .PRES w) stop = .ok i := by
      intro w hw
      interval_cases w <;> exact ⟨_, rfl⟩
    obtain ⟨i, hi⟩ := hlisted w hw
    exact ⟨_, i, rfl, hi⟩

/-- The read of a calibration word has a listed length. -/
theorem wordRead_listed {sensors : List Sensor} {k : Nat} {S : Sensor} (hS : sensors[k]? = some S) :
    transactionListed sensors (.read S.profile.addr k (wordLength S.profile) Config.stop) := by
  refine ⟨rfl, S, hS, rfl, ?_⟩
  cases S.profile with
  | TEMP => exact .inl rfl
  | PRES => exact .inl rfl

/-- A listed transaction stays so while every sensor keeps its place and its profile. -/
theorem transactionListed_mono {sensors sensors' : List Sensor}
    (h : ∀ (k : Nat) (S : Sensor), sensors[k]? = some S → ∃ S', sensors'[k]? = some S' ∧ S'.profile = S.profile)
    {tr : Transaction} (htr : transactionListed sensors tr) : transactionListed sensors' tr := by
  cases tr with
  | write addr bytes stop => exact htr
  | read addr dest n stop =>
    obtain ⟨hstop, S, hS, haddr, hn⟩ := htr
    obtain ⟨S', hS', hp⟩ := h dest S hS
    exact ⟨hstop, S', hS', by rw [hp]; exact haddr, by rw [hp]; exact hn⟩

/-- Right after the issue of a listed transaction. -/
theorem transportSound_issued {sensors : List Sensor} {tr : Transaction} (draw : Nat) (h : transactionListed sensors tr) :
    TransportSound sensors (issued draw tr) := by
  intro tr' htr'
  cases htr'
  exact ⟨rfl, rfl, h⟩

/-- A transport that has completed carries nothing. -/
theorem transportSound_completed (sensors : List Sensor) (error : Bool) (code n : Int) :
    TransportSound sensors (completed error code n) :=
  nofun

/-- Every transport of `t` was one of `s`, or is sound. -/
def BusesKeptSound (s t : State) : Prop := ∀ T ∈ t.buses, T ∈ s.buses ∨ TransportSound s.sensors T

theorem BusesKeptSound.of_eq {s t : State} (h : t.buses = s.buses) : BusesKeptSound s t :=
  fun _ hT => .inl (h ▸ hT)

theorem BusesKeptSound.of_set {s t : State} {b : Nat} {T : Transport} (h : t.buses = s.buses.set b T)
    (hT : TransportSound s.sensors T) : BusesKeptSound s t := by
  intro T' hT'
  rw [h] at hT'
  obtain hold | rfl := List.mem_or_eq_of_mem_set hT'
  · exact .inl hold
  · exact .inr hT

theorem BusesKeptSound.of_issue {s t : State} {b draw : Nat} {tr : Transaction} (h : t.buses = s.buses.set b (issued draw tr))
    (htr : transactionListed s.sensors tr) : BusesKeptSound s t :=
  .of_set h (transportSound_issued draw htr)

/-- No blocking operation runs. -/
theorem blockingSound_none {s : State} (h : s.blk = none) : BlockingSound s := by
  intro B hB
  rw [h] at hB
  cases hB

/-- One runs, at a sound phase. -/
theorem blockingSound_some {s : State} {B : Blocking} {S : Sensor} (h : s.blk = some B) (hS : s.sensors[B.sensor]? = some S)
    (hph : phaseSound S B.phase) : BlockingSound s := by
  intro B' hB'
  obtain rfl : B = B' := Option.some.inj (h.symm.trans hB')
  exact ⟨S, hS, hph⟩

/-- The invariant after a step that updates at most sensor `k`. -/
theorem machineInv_of_modify {s t : State} {k : Nat} {f : Sensor → Sensor} (hs : MachineInv s)
    (hfixed : fixedPart t = fixedPart s) (hsensors : t.sensors = s.sensors.modify k f)
    (hf : ∀ S, s.sensors[k]? = some S → SensorSound s.buses.length s.CLK S →
      SensorSound s.buses.length s.CLK (f S) ∧ (f S).profile = S.profile)
    (hbuses : BusesKeptSound s t) (hblk : BlockingSound t) : MachineInv t := by
  obtain ⟨hclk, hlen, hmark⟩ := fixedPart_eq_iff.mp hfixed
  refine ⟨hmark.trans hs.unmarked, fun S' hS' => ?_, fun T hT tr htr => ?_, hblk⟩
  · rw [hclk, hlen]
    obtain ⟨j, hj⟩ := List.mem_iff_getElem?.mp hS'
    rw [hsensors, List.getElem?_modify, Option.map_eq_map, Option.map_eq_some_iff] at hj
    obtain ⟨S, hS, rfl⟩ := hj
    have hsound := hs.sensors S (List.mem_of_getElem? hS)
    split
    · next hk => subst hk; exact (hf S hS hsound).1
    · exact hsound
  · obtain ⟨hfin, herr, hlisted⟩ : T.finished = false ∧ T.error = false ∧ transactionListed s.sensors tr :=
      (hbuses T hT).elim (fun hold => hs.buses T hold tr htr) fun hnew => hnew tr htr
    refine ⟨hfin, herr, transactionListed_mono (fun j S hS => ?_) hlisted⟩
    rw [hsensors, List.getElem?_modify, hS]
    refine ⟨_, rfl, ?_⟩
    split
    · next hk => subst hk; exact (hf S hS (hs.sensors S (List.mem_of_getElem? hS))).2
    · rfl

/-- The invariant after a step that leaves the sensors alone. -/
theorem machineInv_of_sensors_eq {s t : State} (hs : MachineInv s) (hfixed : fixedPart t = fixedPart s)
    (hsensors : t.sensors = s.sensors) (hbuses : BusesKeptSound s t) (hblk : BlockingSound t) : MachineInv t :=
  machineInv_of_modify (k := 0) (f := id) hs hfixed (hsensors.trans (List.modify_id 0 _).symm) (fun _ _ h => ⟨h, rfl⟩) hbuses
    hblk

end Sys2Proof.Proofs
end

section
/-! PROOFS. Every agent's step keeps the machine invariant. -/

namespace Sys2Proof.Proofs

open Sys2Proof.Machine Sys2Proof.Laws Sys2Proof.Safety

@[simp] theorem waitDiag_CLK (r : PollResult) (T : Transport) (s : State) : (waitDiag r T s).CLK = s.CLK := by
  cases r <;> rfl

@[simp] theorem waitDiag_draws (r : PollResult) (T : Transport) (s : State) : (waitDiag r T s).draws = s.draws := by
  cases r <;> rfl

/-- In a sound state every sensor is sound. -/
theorem sensorSound_of {s : State} (hs : MachineInv s) {k : Nat} {S : Sensor} (hS : s.sensors[k]? = some S) :
    SensorSound s.buses.length s.CLK S :=
  hs.sensors S (List.mem_of_getElem? hS)

/-- The buffer a read names is filled or lost; what a blocking operation waits for stays. -/
theorem machineInv_of_filled {s t : State} {k b : Nat} {T : Transport} {f : Memory → Memory} (hs : MachineInv s)
    (hf : ∀ m, Memory.wf m = true → Memory.wf (f m) = true) (hT : TransportSound s.sensors T)
    (ht : t = updSensor k (fun S => { S with buf := f S.buf }) (setBus b T s)) : MachineInv t := by
  subst ht
  refine machineInv_of_modify (k := k) (f := fun S => { S with buf := f S.buf }) hs (by simp) rfl
    (fun S _ h => ⟨sensorSound_filled h (hf _ h.buffer), rfl⟩) (.of_set rfl hT) fun B hB => ?_
  obtain ⟨S, hS, hph⟩ := hs.blocking B hB
  rw [updSensor_lookup]
  split
  · exact ⟨_, by rw [setBus_sensors, hS]; rfl, by cases hB : B.phase <;> rw [hB] at hph <;> exact hph⟩
  · exact ⟨S, hS, hph⟩

/-- A transport's completion. -/
theorem complete_machineInv {b : Nat} {c : Completion} {s t : State} (hs : MachineInv s) (h : complete b c s = .next t) :
    MachineInv t := by
  obtain ⟨T, tr, -, -, h⟩ := complete_next h
  obtain ⟨_, _, _, n, -, -, -, rfl⟩ | ⟨_, dest, n, _, data, -, -, hd, hn, ht⟩ | ⟨_, _, _, code, n, -, -, -, rfl⟩ |
    ⟨_, dest, len, _, code, n, -, -, -, ht⟩ := h
  · exact machineInv_of_sensors_eq hs (by simp) rfl (.of_set rfl (transportSound_completed _ _ _ _)) hs.blocking
  · exact machineInv_of_filled hs (fun m hm => receive_wf n data m hm (hd.trans hn)) (transportSound_completed _ _ _ _) ht
  · exact machineInv_of_sensors_eq hs (by simp) rfl (.of_set rfl (transportSound_completed _ _ _ _)) hs.blocking
  · exact machineInv_of_filled hs (fun m hm => eraseFrom_wf m 0 _ hm) (transportSound_completed _ _ _ _) ht

/-- A tick: the effects stamp the timer of the state they lead to, and issue listed transactions. -/
theorem advanceWith_machineInv {report : ReadState → Result} {k : Nat} {s t : State} (hs : MachineInv s) (hblk : s.blk = none)
    (h : advanceWith report k s = .next t) : MachineInv t := by
  have hfixed := advanceWith_fixedPart h
  obtain ⟨S, T, next, u, hS, hp, hT, rfl, hcases⟩ := advanceWith_next h
  have hsound := sensorSound_of hs hS
  -- it is enough to say what the update before the move of the pc makes of `S`
  have moves : ∀ f : Sensor → Sensor, u.sensors = s.sensors.modify k f → u.blk = s.blk → BusesKeptSound s u →
      SensorSound s.buses.length s.CLK (f S) → (f S).profile = S.profile → timersWritten { f S with rs := next } →
      MachineInv (setRet (report next) (setPc k next u)) := by
    intro f hu hB hbuses hfS hfp hr
    refine machineInv_of_modify (k := k) (f := (fun S => { S with rs := next }) ∘ f) hs hfixed
      (by simp [hu, List.modify_modify_eq]) (fun S' hS' _ => ?_) hbuses (blockingSound_none (hB.trans hblk))
    obtain rfl : S = S' := Option.some.inj (hS.symm.trans hS')
    exact ⟨sensorSound_setPc hfS (hfp.trans hp) hr, hfp⟩
  obtain ⟨rfl, -, rfl⟩ | ⟨-, rfl, -, rfl⟩ | ⟨-, -, rfl, rfl⟩ | ⟨-, -, rfl, -, rfl⟩ | ⟨-, -, rfl, -, rfl⟩ | ⟨-, -, rfl, rfl⟩ |
    ⟨-, -, rfl, rfl⟩ := hcases
  · exact moves id (List.modify_id k _).symm rfl (.of_eq rfl) hsound rfl hsound.timers
  · exact moves _ rfl rfl (.of_issue rfl ⟨0x48, .tConvert 0 true, rfl, rfl⟩) (sensorSound_stampOp hsound) rfl
      ⟨fun _ => nofun, nofun⟩
  · exact moves _ rfl rfl (.of_eq rfl) (sensorSound_stampConv hsound) rfl ⟨nofun, fun _ => nofun⟩
  · exact moves _ rfl rfl (.of_issue rfl ⟨0x00, .tAdcRead 0 true, rfl, rfl⟩) (sensorSound_stampOp hsound) rfl
      ⟨fun _ => nofun, nofun⟩
  · exact moves _ rfl rfl (.of_issue rfl ⟨rfl, S, hS, by rw [hp]; rfl, by rw [hp]; exact .inr rfl⟩)
      (sensorSound_stampOp hsound) rfl ⟨fun _ => nofun, nofun⟩
  · exact moves _ rfl rfl (.of_eq rfl) (sensorSound_decodeStore hsound hp) rfl ⟨by simp, nofun⟩
  · exact moves _ rfl rfl (.of_eq rfl) (sensorSound_setPc hsound hp ⟨by simp, nofun⟩) rfl ⟨by simp, nofun⟩

/-- A step in which a blocking operation stamps the operation timer of its sensor and issues a listed transaction. -/
theorem machineInv_of_block_issue {s t : State} {B : Blocking} {b draw : Nat} {S : Sensor} {tr : Transaction}
    (hs : MachineInv s) (hS : s.sensors[B.sensor]? = some S) (hfixed : fixedPart t = fixedPart s)
    (hsensors : t.sensors = s.sensors.modify B.sensor fun S => { S with tOp := some s.CLK })
    (hbuses : t.buses = s.buses.set b (issued draw tr)) (hB : t.blk = some B) (htr : transactionListed s.sensors tr)
    (hph : phaseSound { S with tOp := some s.CLK } B.phase) : MachineInv t :=
  machineInv_of_modify hs hfixed hsensors (fun _ _ h => ⟨sensorSound_stampOp h, rfl⟩) (.of_issue hbuses htr)
    (blockingSound_some hB (by rw [hsensors, List.getElem?_modify_eq, hS]; rfl) hph)

/-- An operation of the host. -/
theorem exec_machineInv {i : Instr} {s t : State} (hs : MachineInv s) (hblk : s.blk = none) (hw : i.wellFormed = true)
    (h : exec i s = .next t) : MachineInv t := by
  have hfixed := exec_fixedPart hw h
  obtain ⟨r, rfl⟩ | ⟨k, r, -, rfl⟩ | ⟨k, S, -, hS, hp, rfl⟩ | ⟨k, report, -, h⟩ | ⟨k, -, h⟩ | ⟨k, -, h⟩ |
    ⟨b, f, j, -, hj, h⟩ := exec_next hw h
  · exact machineInv_of_sensors_eq hs hfixed rfl (.of_eq rfl) hs.blocking
  · exact machineInv_of_sensors_eq hs hfixed rfl (.of_eq rfl) hs.blocking
  · refine machineInv_of_modify hs hfixed rfl (fun S' hS' hsound => ?_) (.of_eq rfl) (blockingSound_none hblk)
    obtain rfl : S = S' := Option.some.inj (hS.symm.trans hS')
    exact ⟨sensorSound_setPc hsound hp ⟨by simp, nofun⟩, rfl⟩
  · exact advanceWith_machineInv hs hblk h
  · obtain ⟨S, T, hS, hok, -, -, ⟨hp, rfl⟩ | ⟨hp, rfl⟩⟩ := execInit_next h
    · exact machineInv_of_block_issue (B := ⟨k, .resetWait, 0⟩) hs hS hfixed rfl rfl rfl ⟨0x1E, .tReset 0 true, rfl, rfl⟩
        ⟨hp, hok, nofun⟩
    · exact machineInv_of_block_issue (B := ⟨k, .cmdWait 0, 0⟩) hs hS hfixed rfl rfl rfl ⟨0x00, .pMemCust0 0 true, rfl, rfl⟩
        ⟨by rw [hp]; decide, hok, nofun⟩
  · obtain ⟨S, T, hS, hp, -, -, rfl⟩ := execReadBlocking_next h
    exact machineInv_of_block_issue (B := ⟨k, .measureWait, 0⟩) hs hS hfixed rfl rfl rfl ⟨0xAC, .pMeasure 0 true, rfl, rfl⟩
      ⟨hp, nofun⟩
  · obtain ⟨T, -, -, rfl⟩ := issueFrame_next h
    exact machineInv_of_sensors_eq hs hfixed rfl (.of_issue rfl ⟨f.cmd, j, rfl, hj⟩) hs.blocking

/-- A construction puts a sound sensor behind the others. -/
theorem constructSensor_machineInv {p : Profile} {b : Nat} {s t : State} (hs : MachineInv s)
    (h : constructSensor p b s = .next t) : MachineInv t := by
  obtain ⟨T, hT, -⟩ := onBus_next h
  obtain rfl := constructSensor_next h
  have kept : ∀ (k : Nat) (S : Sensor), s.sensors[k]? = some S → (s.sensors ++ [Sensor.construct p b])[k]? = some S :=
    fun k S hS => by rw [List.getElem?_append_left (List.getElem?_eq_some_iff.mp hS).1, hS]
  refine ⟨hs.unmarked, fun S hS => ?_, fun T hT tr htr => ?_, fun B hB => ?_⟩
  · obtain hold | hnew := List.mem_append.mp hS
    · exact hs.sensors S hold
    · obtain rfl := List.mem_singleton.mp hnew
      exact construct_sound p _ (List.getElem?_eq_some_iff.mp hT).1
  · obtain ⟨hfin, herr, hlisted⟩ := hs.buses T hT tr htr
    exact ⟨hfin, herr, transactionListed_mono (fun k S hS => ⟨S, kept k S hS, rfl⟩) hlisted⟩
  · obtain ⟨S, hS, hph⟩ := hs.blocking B hB
    exact ⟨S, kept _ S hS, hph⟩

/-- INIT after a word that is not the last goes on with the next command. -/
theorem wordEnd_of_lt {B : Blocking} {S : Sensor} {T : Transport} {w : Nat} {r : PollResult} {s : State}
    (hw : w + 1 < S.profile.nCal) :
    wordEnd B S T w r s = atPhase { B with total := B.total + bytesCounted r T } (.cmdIssue (w + 1))
      (nextDraw (waitDiag r T (updSensor B.sensor (storeWord S.profile w (wordRead r s.draws S)) s))) :=
  if_pos hw

/-- After the last word it ends. -/
theorem wordEnd_of_last {B : Blocking} {S : Sensor} {T : Transport} {w : Nat} {r : PollResult} {s : State}
    (hw : ¬ w + 1 < S.profile.nCal) :
    wordEnd B S T w r s = initEnd { B with total := B.total + bytesCounted r T }
      (nextDraw (waitDiag r T (updSensor B.sensor (storeWord S.profile w (wordRead r s.draws S)) s))) :=
  if_neg hw

/-- The end of a word's read. -/
theorem wordEnd_machineInv {B : Blocking} {S : Sensor} {T : Transport} {w : Nat} {r : PollResult} {s : State}
    (hs : MachineInv s) (hS : s.sensors[B.sensor]? = some S) (hok : S.initOk = false) :
    MachineInv (wordEnd B S T w r s) := by
  have hfixed : fixedPart (wordEnd B S T w r s) = fixedPart s := by simp
  have hbuses : BusesKeptSound s (wordEnd B S T w r s) := .of_eq (wordEnd_buses ..)
  by_cases hw : w + 1 < S.profile.nCal
  · rw [wordEnd_of_lt hw] at hfixed hbuses ⊢
    exact machineInv_of_modify hs hfixed (by simp; rfl) (fun _ _ h => ⟨sensorSound_storeWord h _ _ _, rfl⟩) hbuses
      (blockingSound_some (S := storeWord S.profile w (wordRead r s.draws S) S) rfl (by simp [hS]) ⟨hw, hok⟩)
  · rw [wordEnd_of_last hw] at hfixed hbuses ⊢
    exact machineInv_of_modify hs hfixed (by rw [initEnd_sensors]; simp [List.modify_modify_eq]; rfl)
      (fun _ _ h => ⟨sensorSound_decodeStoreFields (sensorSound_storeWord h _ _ _) _, rfl⟩) hbuses (blockingSound_none rfl)

/-- A step in which it stamps the conversion timer and issues nothing. -/
theorem machineInv_of_block_stampConv {s t : State} {B : Blocking} {S : Sensor}
    (hs : MachineInv s) (hS : s.sensors[B.sensor]? = some S) (hfixed : fixedPart t = fixedPart s)
    (hsensors : t.sensors = s.sensors.modify B.sensor fun S => { S with tConv := some s.CLK })
    (hbuses : t.buses = s.buses) (hB : t.blk = some B)
    (hph : phaseSound { S with tConv := some s.CLK } B.phase) : MachineInv t :=
  machineInv_of_modify hs hfixed hsensors (fun _ _ h => ⟨sensorSound_stampConv h, rfl⟩) (.of_eq hbuses)
    (blockingSound_some hB (by rw [hsensors, List.getElem?_modify_eq, hS]; rfl) hph)

/-- A micro-step: each phase gives the next one what it needs. -/
theorem microStep_machineInv {B : Blocking} {s t : State} (hs : MachineInv s) (hB : s.blk = some B)
    (h : microStep B s = .next t) : MachineInv t := by
  have hfixed := microStep_fixedPart h
  obtain ⟨S, T, hS, hT, h⟩ := microStep_next h
  have sound : ∀ {ph}, B.phase = ph → phaseSound S ph := by
    obtain ⟨S', hS', hph⟩ := hs.blocking B hB
    obtain rfl : S = S' := Option.some.inj (hS.symm.trans hS')
    exact fun h => h ▸ hph
  obtain rfl | ⟨hB, -, rfl⟩ | ⟨hB, rfl⟩ | ⟨w, hB, -, rfl⟩ | ⟨w, hB, -, rfl⟩ | ⟨w, hB, rfl⟩ | ⟨w, hB, -, rfl⟩ |
    ⟨w, hB, -, rfl⟩ | ⟨hB, -, rfl⟩ | ⟨-, -, rfl⟩ | ⟨hB, -, -, rfl⟩ | ⟨hB, -, rfl⟩ := h
  · exact hs
  · obtain ⟨hp, hok, -⟩ := sound hB
    exact machineInv_of_block_stampConv (B := { B with phase := .cmdIssue 0 }) hs hS hfixed (by simp) (by simp) rfl
      ⟨by rw [hp]; decide, hok⟩
  · obtain ⟨hp, hok, -⟩ := sound hB
    exact machineInv_of_sensors_eq hs hfixed rfl (.of_eq rfl) (blockingSound_some rfl hS ⟨by rw [hp]; decide, hok⟩)
  · obtain ⟨hw, hok⟩ := sound hB
    exact machineInv_of_block_issue (B := { B with phase := .cmdWait w }) hs hS hfixed rfl rfl rfl
      (wordCommand_listed _ hw _) ⟨hw, hok, nofun⟩
  · obtain ⟨hw, hok, -⟩ := sound hB
    exact machineInv_of_block_stampConv (B := { B with phase := .dataIssue w }) hs hS hfixed (by simp) (by simp) rfl ⟨hw, hok⟩
  · obtain ⟨hw, hok, -⟩ := sound hB
    exact machineInv_of_sensors_eq hs hfixed rfl (.of_eq rfl) (blockingSound_some rfl hS ⟨hw, hok⟩)
  · obtain ⟨hw, hok⟩ := sound hB
    exact machineInv_of_block_issue (B := { B with phase := .dataWait w }) hs hS hfixed rfl rfl rfl
      (wordRead_listed hS) ⟨hw, hok, nofun⟩
  · obtain ⟨-, hok, -⟩ := sound hB
    exact wordEnd_machineInv hs hS hok
  · obtain ⟨hp, -⟩ := sound hB
    exact machineInv_of_block_stampConv (B := { B with phase := .measureDelay }) hs hS hfixed rfl rfl rfl ⟨hp, nofun⟩
  · exact machineInv_of_sensors_eq hs hfixed (by simp) (.of_eq (by simp)) (blockingSound_none rfl)
  · obtain ⟨hp, -⟩ := sound hB
    exact machineInv_of_block_issue (B := { B with phase := .measureData }) hs hS hfixed rfl rfl rfl
      ⟨rfl, S, hS, rfl, by rw [hp]; exact .inr rfl⟩ ⟨hp, nofun⟩
  · obtain ⟨hp, -⟩ := sound hB
    refine machineInv_of_modify hs hfixed rfl (fun S' hS' hsound => ?_) (.of_eq rfl) (blockingSound_none rfl)
    obtain rfl : S = S' := Option.some.inj (hS.symm.trans hS')
    exact ⟨sensorSound_measureStore hsound hp, rfl⟩

/-- The script is no part of the invariant. -/
theorem machineInv_withScript {s : State} (hs : MachineInv s) (l : List Line) : MachineInv { s with script := l } :=
  ⟨hs.unmarked, hs.sensors, hs.buses, hs.blocking⟩

/-- The clock only moves on. -/
theorem advanceClock_machineInv {s : State} (hs : MachineInv s) (d : Nat) : MachineInv (advanceClock d s) :=
  { hs with sensors := fun S hS => sensorSound_later (hs.sensors S hS) (Nat.le_add_right _ _) }

/-- Settles O3: whichever agent moves, its step keeps the invariant; the script is no part of it. -/
theorem stepKeepsMachineInv : Obligations.StepKeepsMachineInv := by
  intro s t hs h
  obtain ⟨-, rest, rfl | ⟨d, rfl⟩ | ⟨b, c, h⟩ | ⟨i, hblk, -, hw, h⟩ | ⟨p, b, -, h⟩ | ⟨v, rfl⟩ | ⟨k, q, h⟩ | ⟨B, hB, h⟩⟩ :=
    step_next h
  all_goals have hs' := machineInv_withScript hs rest
  · exact hs'
  · exact advanceClock_machineInv hs' d
  · exact complete_machineInv hs' h
  · exact exec_machineInv hs' hblk hw h
  · exact constructSensor_machineInv hs' h
  · exact ⟨hs'.unmarked, hs'.sensors, hs'.buses, hs'.blocking⟩
  · obtain ⟨r, rfl⟩ := deriveQuantity_next h
    exact ⟨hs'.unmarked, hs'.sensors, hs'.buses, hs'.blocking⟩
  · exact microStep_machineInv hs' hB h

end Sys2Proof.Proofs
end

section
/-! PROOFS. The pc of a sensor moves only along the table (41_sequencer R173, R191, R195). -/

namespace Sys2Proof.Proofs

open Sys2Proof.Machine Sys2Proof.Laws Sys2Proof.Safety

/-- The transfers a tick makes (41_sequencer R173). -/
def tickTransfers : List (ReadState × ReadState) :=
  [(.Idle, .StartConversion), (.StartConversion, .WaitConversion), (.StartConversion, .Error),
    (.WaitConversion, .RequestData), (.RequestData, .WaitData), (.RequestData, .Error), (.WaitData, .Complete),
    (.WaitData, .Error)]

/-- What a step from `s` to `t` does to the pcs. -/
inductive PcStep (s t : State) : Prop
  /-- nothing -/
  | kept (h : pcs t = pcs s)
  /-- a construction puts one behind the others -/
  | appended (h : pcs t = pcs s ++ [.Idle])
  /-- RESET of sensor `k` -/
  | reset (k : Nat) (ht : taken s = some (.reset k)) (h : pcs t = (pcs s).set k .Idle)
  /-- a tick of sensor `k`, which is at `r` -/
  | tick (k : Nat) (r next : ReadState) (ht : ticks k s = true) (hr : (pcs s)[k]? = some r)
      (hmove : next = r ∨ (r, next) ∈ tickTransfers) (h : pcs t = (pcs s).set k next)

/-- A step that writes one sensor and keeps its pc. -/
theorem PcStep.of_modify {s t : State} {k : Nat} {f : Sensor → Sensor} (h : t.sensors = s.sensors.modify k f)
    (hf : ∀ S, (f S).rs = S.rs) : PcStep s t :=
  .kept (by rw [pcs, h, map_rs_modify hf, pcs])

/-- A completion moves no pc. -/
theorem complete_pcStep {b : Nat} {c : Completion} {s t : State} {rest : List Line}
    (h : complete b c { s with script := rest } = .next t) : PcStep s t := by
  obtain ⟨T, tr, -, -, h⟩ := complete_next h
  obtain ⟨_, _, _, _, _, _, _, rfl⟩ | ⟨_, _, _, _, _, _, _, _, _, rfl⟩ | ⟨_, _, _, _, _, _, _, _, rfl⟩ |
    ⟨_, _, _, _, _, _, _, _, _, rfl⟩ := h
  · exact .kept rfl
  · exact .of_modify rfl fun _ => rfl
  · exact .kept rfl
  · exact .of_modify rfl fun _ => rfl

/-- A tick moves the pc of its sensor along the table. -/
theorem advanceWith_pcStep {report : ReadState → Result} {k : Nat} {s t : State} {rest : List Line} (hk : ticks k s = true)
    (h : advanceWith report k { s with script := rest } = .next t) : PcStep s t := by
  obtain ⟨S, T, next, u, hS, -, -, rfl, hcases⟩ := advanceWith_next h
  have moves : pcs u = pcs s ∨ pcs u = (pcs s).set k .Error → next = S.rs ∨ (S.rs, next) ∈ tickTransfers →
      PcStep s (setRet (report next) (setPc k next u)) := fun hu hmove =>
    .tick k S.rs next hk (pcs_of hS) hmove (by obtain hu | hu := hu <;> simpa [pcs] using congrArg (List.set · k next) hu)
  obtain ⟨rfl, -, rfl⟩ | ⟨hrs, rfl, -, rfl⟩ | ⟨hrs, -, rfl, rfl⟩ | ⟨hrs, -, rfl, -, rfl⟩ | ⟨hrs, -, rfl, -, rfl⟩ |
    ⟨hrs, -, rfl, rfl⟩ | ⟨hrs, -, rfl, rfl⟩ := hcases
  · exact moves (.inl rfl) (.inl rfl)
  · exact moves (.inl (by simp [pcs])) (.inr (by simp [hrs, tickTransfers]))
  · exact moves (.inl (by simp [pcs])) (.inr (by simp [hrs, tickTransfers]))
  · exact moves (.inl (by simp [pcs])) (.inr (by simp [hrs, tickTransfers]))
  · exact moves (.inl (by simp [pcs])) (.inr (by simp [hrs, tickTransfers]))
  · exact moves (.inl (by simp [pcs, map_rs_modify (decodeStore_rs _)])) (.inr (by simp [hrs, tickTransfers]))
  · exact moves (.inr (by simp [pcs])) (.inr (by obtain hrs | hrs | hrs := hrs <;> simp [hrs, tickTransfers]))

/-- Of the operations only RESET and the ticks move a pc. -/
theorem exec_pcStep {i : Instr} {s t : State} {rest : List Line} (ht : taken s = some i) (hw : i.wellFormed = true)
    (h : exec i { s with script := rest } = .next t) : PcStep s t := by
  obtain ⟨r, rfl⟩ | ⟨k, r, -, rfl⟩ | ⟨k, S, rfl, -, -, rfl⟩ | ⟨k, report, hi, h⟩ | ⟨k, -, h⟩ | ⟨k, -, h⟩ |
    ⟨b, f, j, -, -, h⟩ := exec_next hw h
  · exact .kept rfl
  · exact .kept rfl
  · exact .reset k ht (by simp [pcs])
  · exact advanceWith_pcStep (by obtain rfl | rfl := hi <;> simp [ticks, ht]) h
  · obtain ⟨S, T, -, -, -, -, ⟨-, rfl⟩ | ⟨-, rfl⟩⟩ := execInit_next h
    · exact .of_modify rfl fun _ => rfl
    · exact .of_modify rfl fun _ => rfl
  · obtain ⟨S, T, -, -, -, -, rfl⟩ := execReadBlocking_next h
    exact .of_modify rfl fun _ => rfl
  · obtain ⟨T, -, -, rfl⟩ := issueFrame_next h
    exact .kept rfl

/-- A micro-step moves no pc. -/
theorem microStep_pcStep {B : Blocking} {s t : State} {rest : List Line}
    (h : microStep B { s with script := rest } = .next t) : PcStep s t := by
  obtain ⟨S, T, -, -, h⟩ := microStep_next h
  obtain rfl | ⟨_, _, rfl⟩ | ⟨_, rfl⟩ | ⟨_, _, _, rfl⟩ | ⟨_, _, _, rfl⟩ | ⟨_, _, rfl⟩ | ⟨_, _, _, rfl⟩ | ⟨w, _, _, rfl⟩ |
    ⟨_, _, rfl⟩ | ⟨_, _, rfl⟩ | ⟨_, _, _, rfl⟩ | ⟨_, _, rfl⟩ := h
  · exact .kept rfl
  · exact .kept (by simp [pcs])
  · exact .kept rfl
  · exact .of_modify rfl fun _ => rfl
  · exact .kept (by simp [pcs])
  · exact .kept rfl
  · exact .of_modify rfl fun _ => rfl
  · obtain ⟨c, ok, hc⟩ := wordEnd_sensors B S T w (pollOf { s with script := rest } S T) { s with script := rest }
    exact .of_modify hc fun _ => rfl
  · exact .of_modify rfl fun _ => rfl
  · exact .kept (by simp [pcs])
  · exact .of_modify rfl fun _ => rfl
  · exact .of_modify rfl fun _ => rfl

/-- Every step, by the agent that moves. -/
theorem step_pcStep {s t : State} (h : step s = .next t) : PcStep s t := by
  obtain ⟨-, rest, rfl | ⟨d, rfl⟩ | ⟨b, c, h⟩ | ⟨i, -, ht, hw, h⟩ | ⟨p, b, -, h⟩ | ⟨v, rfl⟩ | ⟨k, q, h⟩ | ⟨B, -, h⟩⟩ :=
    step_next h
  · exact .kept rfl
  · exact .kept rfl
  · exact complete_pcStep h
  · exact exec_pcStep ht hw h
  · rw [constructSensor_next h]
    exact .appended (by simp [pcs, Sensor.construct])
  · exact .kept rfl
  · obtain ⟨r, rfl⟩ := deriveQuantity_next h
    exact .kept rfl
  · exact microStep_pcStep h

/-- A lookup after one place of a list has been set. -/
theorem getElem?_set_eq_some {α : Type} {l : List α} {j k : Nat} {x y : α} (h : (l.set j x)[k]? = some y) :
    j = k ∧ y = x ∨ l[k]? = some y := by
  rw [List.getElem?_set] at h
  split at h
  · next hj =>
    split at h
    · exact .inl ⟨hj, (Option.some.inj h).symm⟩
    · cases h
  · exact .inr h

/-- Settles O28: what a step does to the pcs, looked up at one sensor. -/
theorem onlyListedTransfers : Obligations.OnlyListedTransfers := by
  intro k s t S S' h hS hS'
  have hr := pcs_of hS
  have hr' := pcs_of hS'
  have same : (pcs s)[k]? = some S'.rs → S'.rs = S.rs := fun h => Option.some.inj (h.symm.trans hr)
  cases step_pcStep h with
  | kept hp => exact .inl (same (by rwa [hp] at hr'))
  | appended hp =>
    rw [hp, List.getElem?_append_left (List.getElem?_eq_some_iff.mp hr).1] at hr'
    exact .inl (same hr')
  | reset j ht hp =>
    obtain ⟨rfl, hidle⟩ | hkept := getElem?_set_eq_some (hp ▸ hr')
    · exact .inr (.inl ⟨ht, hidle⟩)
    · exact .inl (same hkept)
  | tick j r next ht hrj hmove hp =>
    obtain ⟨rfl, rfl⟩ | hkept := getElem?_set_eq_some (hp ▸ hr')
    · obtain rfl : r = S.rs := Option.some.inj (hrj.symm.trans hr)
      exact hmove.imp_right fun hmem => .inr ⟨ht, hmem⟩
    · exact .inl (same hkept)

/-- How far a cycle has come, counted in ticks: the least number of ticks from Idle. -/
def ticksDone : ReadState → Nat
  | .Idle | .Error => 0
  | .StartConversion => 1
  | .WaitConversion => 2
  | .RequestData => 3
  | .WaitData => 4
  | .Complete => 5

/-- One step brings a sensor on by at most one, and only if it is a tick of that sensor. -/
theorem ticksDone_step {k : Nat} {s t : State} {S S' : Sensor} (h : step s = .next t) (hS : s.sensors[k]? = some S)
    (hS' : t.sensors[k]? = some S') : ticksDone S'.rs ≤ (if ticks k s then 1 else 0) + ticksDone S.rs := by
  obtain hkept | ⟨-, hidle⟩ | ⟨htick, hmem⟩ := onlyListedTransfers k s t S S' h hS hS'
  · rw [hkept]
    exact Nat.le_add_left _ _
  · rw [hidle]
    exact Nat.zero_le _
  · rw [if_pos htick]
    have hlisted : ∀ m ∈ tickTransfers, ticksDone m.2 ≤ 1 + ticksDone m.1 := by decide
    exact hlisted _ hmem

/-- A run of `n + 1` steps is a step and a run of `n`. -/
theorem reaches_succ_iff {s t : State} {n : Nat} : reaches s (n + 1) t ↔ ∃ u, step s = .next u ∧ reaches u n t := by
  have hcore : core.step s = step s := rfl
  simp only [reaches, Host.Core.run, hcore]
  cases step s <;> simp

/-- The first step's share in the count of the ticks. -/
theorem tickCount_succ {k n : Nat} {s u : State} (h : step s = .next u) :
    tickCount k (n + 1) s = (if ticks k s then 1 else 0) + tickCount k n u := by
  rw [tickCount, h]

/-- In a run a sensor gets no further than it is ticked. -/
theorem ticksDone_le_tickCount {k n : Nat} {s t : State} {S S' : Sensor} (h : reaches s n t) (hS : s.sensors[k]? = some S)
    (hS' : t.sensors[k]? = some S') : ticksDone S'.rs ≤ tickCount k n s + ticksDone S.rs := by
  induction n generalizing s S with
  | zero =>
    cases h
    obtain rfl : S = S' := Option.some.inj (hS.symm.trans hS')
    exact Nat.le_add_left _ _
  | succ n ih =>
    obtain ⟨u, hstep, hrun⟩ := reaches_succ_iff.mp h
    obtain ⟨U, hU, -⟩ := step_changes hstep k S hS
    calc ticksDone S'.rs ≤ tickCount k n u + ticksDone U.rs := ih hrun hU
      _ ≤ tickCount k n u + ((if ticks k s then 1 else 0) + ticksDone S.rs) :=
        Nat.add_le_add_left (ticksDone_step hstep hS hU) _
      _ = tickCount k (n + 1) s + ticksDone S.rs := by rw [tickCount_succ hstep]; omega

/-- Settles O29: Complete is five ticks from Idle. -/
theorem fewerThanFiveTicksCannotComplete : Obligations.FewerThanFiveTicksCannotComplete := by
  intro k n s t S S' h hS hidle hS' hcomplete
  have hle := ticksDone_le_tickCount h hS hS'
  rwa [hidle, hcomplete] at hle

end Sys2Proof.Proofs
end

section
/-! PROOFS. The frame of an operation (41_sequencer R172, R188, 20_memory R77, 60_exceptions R284). -/

namespace Sys2Proof.Proofs

open Sys2Proof.Machine Sys2Proof.Laws Sys2Proof.Safety

/-- The parts of a state no operation writes. -/
def untouched (s : State) : Nat × F32 × List Line × Bool := (s.CLK, s.fluidDensity, s.script, s.FAULT)

/-- The parts of a sensor no operation writes. -/
def sensorFrame (S : Sensor) : Profile × Nat × Cal × Bool × Option RawPres × Memory :=
  (S.profile, S.bus, S.cal, S.initOk, S.rawPres, S.buf)

/-- What an operation on sensor `subj`, or a bus command on bus `named`, can do to a state: it updates its sensor, and puts a
transport in the place of the one it issues on. -/
structure OpFrame (subj named : Option Nat) (s t : State) : Prop where
  fixed : untouched t = untouched s
  sensors : t.sensors = s.sensors ∨ ∃ k f, subj = some k ∧ t.sensors = s.sensors.modify k f ∧
    ∀ S, sensorFrame (f S) = sensorFrame S
  buses : t.buses = s.buses ∨ ∃ b T, (named = some b ∨ ∃ k S, subj = some k ∧ s.sensors[k]? = some S ∧ S.bus = b) ∧
    t.buses = s.buses.set b T

/-- An operation that returns a result and does nothing else. -/
theorem opFrame_of_setRet (subj named : Option Nat) (r : Result) (s : State) : OpFrame subj named s (setRet r s) :=
  ⟨rfl, .inl rfl, .inl rfl⟩

/-- A bus command row. -/
theorem issueFrame_opFrame {subj : Option Nat} {b : Nat} {f : Frame} {s t : State} (h : issueFrame b f s = .next t) :
    OpFrame subj (some b) s t := by
  obtain ⟨T, -, -, rfl⟩ := issueFrame_next h
  exact ⟨rfl, .inl rfl, .inr ⟨b, _, .inl rfl, rfl⟩⟩

/-- A tick. -/
theorem advanceWith_opFrame {report : ReadState → Result} {k : Nat} {named : Option Nat} {s t : State}
    (h : advanceWith report k s = .next t) : OpFrame (some k) named s t := by
  obtain ⟨S, T, next, u, hS, -, -, rfl, hcases⟩ := advanceWith_next h
  -- it is enough to say what the update before the move of the pc does
  have moves : OpFrame (some k) named s u → OpFrame (some k) named s (setRet (report next) (setPc k next u)) := by
    rintro ⟨hfixed, hsensors, hbuses⟩
    refine ⟨hfixed, .inr ?_, hbuses⟩
    obtain hsensors | ⟨j, f, hj, hsensors, hf⟩ := hsensors
    · exact ⟨k, fun S => { S with rs := next }, rfl, by simp [hsensors], fun _ => rfl⟩
    · obtain rfl : k = j := Option.some.inj hj
      exact ⟨k, (fun S : Sensor => { S with rs := next }) ∘ f, rfl, by simp [hsensors, List.modify_modify_eq], hf⟩
  have issues : ∀ tr, OpFrame (some k) named s (stampOp k (nextDraw (setBus S.bus (issued s.draws tr) s))) := fun tr =>
    ⟨rfl, .inr ⟨k, _, rfl, rfl, fun _ => rfl⟩, .inr ⟨S.bus, _, .inr ⟨k, S, rfl, hS, rfl⟩, rfl⟩⟩
  obtain ⟨-, -, rfl⟩ | ⟨-, -, -, rfl⟩ | ⟨-, -, -, rfl⟩ | ⟨-, -, -, -, rfl⟩ | ⟨-, -, -, -, rfl⟩ | ⟨-, -, -, rfl⟩ |
    ⟨-, -, -, rfl⟩ := hcases
  · exact moves ⟨rfl, .inl rfl, .inl rfl⟩
  · exact moves (issues _)
  · exact moves ⟨rfl, .inr ⟨k, _, rfl, rfl, fun _ => rfl⟩, .inl rfl⟩
  · exact moves (issues _)
  · exact moves (issues _)
  · exact moves ⟨rfl, .inr ⟨k, _, rfl, rfl, fun _ => rfl⟩, .inl rfl⟩
  · exact moves ⟨rfl, .inr ⟨k, _, rfl, rfl, fun _ => rfl⟩, .inl rfl⟩

/-- The beginning of a blocking operation. -/
theorem opFrame_of_block_issue {k : Nat} {named : Option Nat} {B : Blocking} {s : State} {S : Sensor} {tr : Transaction}
    {draw : Nat} {r : Result} (hS : s.sensors[k]? = some S) :
    OpFrame (some k) named s
      (setBlk (some B) (stampOp k (nextDraw (setBus S.bus (issued draw tr) (setRet r s))))) :=
  ⟨rfl, .inr ⟨k, _, rfl, rfl, fun _ => rfl⟩, .inr ⟨S.bus, _, .inr ⟨k, S, rfl, hS, rfl⟩, rfl⟩⟩

/-- Every operation. -/
theorem exec_opFrame {i : Instr} {s t : State} (h : exec i s = .next t) : OpFrame (subject i) (namedBus i) s t := by
  cases i with
  | advance k => exact advanceWith_opFrame h
  | tick k => exact advanceWith_opFrame (report := fun r => .tick (tickOf r)) h
  | query k =>
    obtain ⟨S, -, -, h⟩ := onSensor_next h
    cases h
    exact opFrame_of_setRet ..
  | reset k =>
    obtain ⟨S, -, -, h⟩ := onSensor_next h
    cases h
    exact ⟨rfl, .inr ⟨k, _, rfl, rfl, fun _ => rfl⟩, .inl rfl⟩
  | getValue k =>
    obtain ⟨S, -, -, h⟩ := onSensor_next h
    split at h
    · cases h; exact opFrame_of_setRet ..
    · cases h
  | init k =>
    obtain ⟨S, T, hS, -, -, -, ⟨-, rfl⟩ | ⟨-, rfl⟩⟩ := execInit_next h
    · exact opFrame_of_block_issue hS
    · exact opFrame_of_block_issue hS
  | isInit k =>
    obtain ⟨S, -, -, h⟩ := onSensor_next h
    split at h
    · cases h; exact opFrame_of_setRet ..
    · cases h; exact ⟨rfl, .inl rfl, .inl rfl⟩
  | readBlocking k =>
    obtain ⟨S, T, hS, -, -, -, rfl⟩ := execReadBlocking_next h
    exact opFrame_of_block_issue hS
  | decode16 | decode24 | decode32 | split32 | bitcastF32 | bitcastU32 | fieldEquip | fieldPlace | fieldFile | fieldCode
  | fieldMode | fieldDate => cases h; exact opFrame_of_setRet ..
  | tReset | tConvert | tAdcRead | tPromRead | pMeasure | pMemCust0 | pMemCust1 | pMemScaling0 | pMemPminHi | pMemPminLo
  | pMemPmaxHi | pMemPmaxLo => exact issueFrame_opFrame h

/-- Such an operation keeps every sensor in its place, with its frame, and all of it if it is not the operation's own. -/
theorem OpFrame.sensor {subj named : Option Nat} {s t : State} (h : OpFrame subj named s t) {k : Nat} {S : Sensor}
    (hS : s.sensors[k]? = some S) :
    ∃ S', t.sensors[k]? = some S' ∧ sensorFrame S' = sensorFrame S ∧ (subj ≠ some k → S' = S) := by
  obtain hsensors | ⟨j, f, hj, hsensors, hf⟩ := h.sensors
  · exact ⟨S, hsensors ▸ hS, rfl, fun _ => rfl⟩
  · by_cases hk : j = k
    · subst hk
      exact ⟨f S, by simp [hsensors, hS], hf S, fun hne => absurd hj hne⟩
    · exact ⟨S, by simp [hsensors, hk, hS], rfl, fun _ => rfl⟩

/-- And every bus but the one it issues on. -/
theorem OpFrame.bus {subj named : Option Nat} {s t : State} (h : OpFrame subj named s t) {b : Nat} (hb : named ≠ some b)
    (hown : ∀ k S, subj = some k → s.sensors[k]? = some S → S.bus ≠ b) : t.buses[b]? = s.buses[b]? := by
  obtain hbuses | ⟨c, T, hc, hbuses⟩ := h.buses
  · rw [hbuses]
  · rw [hbuses, List.getElem?_set_ne]
    rintro rfl
    obtain hc | ⟨k, S, hk, hS, hbus⟩ := hc
    · exact hb hc
    · exact hown k S hk hS hbus

/-- Such an operation adds and removes no sensor and no bus. -/
theorem OpFrame.lengths {subj named : Option Nat} {s t : State} (h : OpFrame subj named s t) :
    t.sensors.length = s.sensors.length ∧ t.buses.length = s.buses.length := by
  constructor
  · obtain hsensors | ⟨_, _, _, hsensors, _⟩ := h.sensors <;> simp [hsensors]
  · obtain hbuses | ⟨_, _, _, hbuses⟩ := h.buses <;> simp [hbuses]

/-- Settles O56: `exec_opFrame`, part by part. -/
theorem operationFrame : Obligations.OperationFrame := by
  intro i s t h
  have hframe := exec_opFrame h
  obtain ⟨hclk, hdensity, hscript, hmark⟩ : t.CLK = s.CLK ∧ t.fluidDensity = s.fluidDensity ∧ t.script = s.script ∧
    t.FAULT = s.FAULT := by simpa [untouched] using hframe.fixed
  obtain ⟨hsensors, hbuses⟩ := hframe.lengths
  refine ⟨hclk, hdensity, hscript, hmark, hsensors, hbuses, fun k S hS => ?_, fun b => hframe.bus⟩
  obtain ⟨S', hS', hkept, hother⟩ := hframe.sensor hS
  obtain ⟨hp, hb, hcal, hok, hraw, hbuf⟩ : S'.profile = S.profile ∧ S'.bus = S.bus ∧ S'.cal = S.cal ∧ S'.initOk = S.initOk ∧
    S'.rawPres = S.rawPres ∧ S'.buf = S.buf := by simpa [sensorFrame] using hkept
  exact ⟨S', hS', hp, hb, hcal, hok, hraw, fun a => by rw [hbuf], hother⟩

end Sys2Proof.Proofs
end

section
/-! SUPPORT. What a tick answers, said once for ADVANCE and TICK: `TickAnswers`, with one lemma per shape of a tick. -/

namespace Sys2Proof.Proofs

open Sys2Proof.Machine Sys2Proof.Laws Sys2Proof.Safety

/-- A tick of sensor `k` in `s` leads to `t` and reports `r`, whatever is made of the report (41_sequencer R172, R186). -/
def TickAnswers (k : Nat) (s t : State) (r : ReadState) : Prop :=
  ∀ report : ReadState → Result, advanceWith report k s = .next (setRet (report r) t)

/-- ADVANCE reports the state, TICK its three-valued result. -/
theorem TickAnswers.exec {k : Nat} {s t : State} {r : ReadState} (h : TickAnswers k s t r) :
    exec (.advance k) s = .next { t with ret := .readState r } ∧
      exec (.tick k) s = .next { t with ret := .tick (tickOf r) } :=
  ⟨h .readState, h fun r => .tick (tickOf r)⟩

/-- A tick whose effects update its sensor by `f` and the rest of the state to `u`. -/
theorem tickAnswers_of_performAll {k : Nat} {s u : State} {S : Sensor} {T : Transport} {next : ReadState} {es : List Effect}
    (f : Sensor → Sensor) (h : Has s k S T) (hp : S.profile = .TEMP) (hsample : sampled s S T = (next, es))
    (hperform : performAll k S es s = .next (updSensor k f u)) (hu : u.sensors = s.sensors) :
    TickAnswers k s (withSensor k { f S with rs := next } u) next := by
  obtain ⟨hS, hT⟩ := h
  intro report
  rw [advanceWith_of report hS hp hT, hsample, hperform, andThen_of_next, setPc, updSensor_updSensor,
    updSensor_withSensor _ (hu ▸ hS)]

/-- A tick that does nothing. -/
theorem tickAnswers_quiet {k : Nat} {s : State} {S : Sensor} {T : Transport} (h : Has s k S T) (hp : S.profile = .TEMP)
    (hsample : sampled s S T = (S.rs, [])) : TickAnswers k s s S.rs := by
  have hid : updSensor k id s = s := (updSensor_withSensor id h.1).trans (withSensor_same h.1)
  have hanswer := tickAnswers_of_performAll (u := s) id h hp hsample (by rw [hid]; rfl) rfl
  rwa [id, withSensor_same h.1] at hanswer

/-- A tick that issues a transaction and stamps the operation timer. -/
theorem tickAnswers_issue {k : Nat} {s : State} {S : Sensor} {T : Transport} {next : ReadState} {e : Effect}
    {tr : Transaction} (h : Has s k S T) (hp : S.profile = .TEMP) (hsample : sampled s S T = (next, [e, .resetOpTimer]))
    (he : perform k S e s = issue S.bus tr s) (hfree : T.inflight = none) :
    TickAnswers k s (withBus S.bus (justIssued tr s)
      (withSensor k { S with rs := next, tOp := some s.CLK } { s with draws := s.draws + 1 })) next :=
  tickAnswers_of_performAll (u := nextDraw (setBus S.bus (issued s.draws tr) s)) (fun S => { S with tOp := some s.CLK }) h hp
    hsample (by rw [performAll_cons, he, issue_free tr h.2 hfree]; rfl) rfl

/-- A tick that takes an exception (60_exceptions R272). -/
theorem tickAnswers_raise {k : Nat} {s : State} {S : Sensor} {T : Transport} {kind : ErrorKind} {e : DiagEvent}
    (h : Has s k S T) (hp : S.profile = .TEMP) (hsample : sampled s S T = (.Error, [.diag kind]))
    (he : diagOf kind T = some e) :
    TickAnswers k s (withSensor k { S with rs := .Error } { s with diag := s.diag ++ [e] }) .Error :=
  tickAnswers_of_performAll (u := emitDiag e s) (fun S => { S with rs := .Error }) h hp hsample
    (by rw [performAll_cons, perform, onBus_of _ h.2, he]; rfl) rfl

/-- In the three polling states a tick does what its poll says. -/
theorem sampled_polling {s : State} {S : Sensor} (T : Transport)
    (hrs : S.rs = .StartConversion ∨ S.rs = .RequestData ∨ S.rs = .WaitData) :
    ∃ d, sampled s S T = pollTransition (pollOf s S T) S.rs d := by
  obtain hrs | hrs | hrs := hrs
  · exact ⟨_, hrs ▸ sampled_startConversion T hrs⟩
  · exact ⟨_, hrs ▸ sampled_requestData T hrs⟩
  · exact ⟨_, hrs ▸ sampled_waitData T hrs⟩

/-- A poll that failed. -/
theorem tickAnswers_failed {k : Nat} {s : State} {S : Sensor} {T : Transport} (h : Has s k S T) (hp : S.profile = .TEMP)
    (hrs : S.rs = .StartConversion ∨ S.rs = .RequestData ∨ S.rs = .WaitData) (hq : pollOf s S T = .Failed) :
    TickAnswers k s (withSensor k { S with rs := .Error } { s with diag := s.diag ++ [.busErrorSeen T.errcode] }) .Error := by
  obtain ⟨d, hd⟩ := sampled_polling (s := s) T hrs
  rw [hq, pollTransition_Failed] at hd
  exact tickAnswers_raise h hp hd rfl

/-- A poll that timed out. -/
theorem tickAnswers_timedOut {k : Nat} {s : State} {S : Sensor} {T : Transport} (h : Has s k S T) (hp : S.profile = .TEMP)
    (hrs : S.rs = .StartConversion ∨ S.rs = .RequestData ∨ S.rs = .WaitData) (hq : pollOf s S T = .TimedOut) :
    TickAnswers k s (withSensor k { S with rs := .Error } { s with diag := s.diag ++ [.timeoutSeen] }) .Error := by
  obtain ⟨d, hd⟩ := sampled_polling (s := s) T hrs
  rw [hq, pollTransition_TimedOut] at hd
  exact tickAnswers_raise h hp hd rfl

/-- A poll that is pending. -/
theorem tickAnswers_pending {k : Nat} {s : State} {S : Sensor} {T : Transport} (h : Has s k S T) (hp : S.profile = .TEMP)
    (hrs : S.rs = .StartConversion ∨ S.rs = .RequestData ∨ S.rs = .WaitData) (hq : pollOf s S T = .Pending) :
    TickAnswers k s s S.rs := by
  obtain ⟨d, hd⟩ := sampled_polling (s := s) T hrs
  rw [hq, pollTransition_Pending] at hd
  exact tickAnswers_quiet h hp hd

/-- Idle on a free bus (41_sequencer R174). -/
theorem tickAnswers_idle {k : Nat} {s : State} {S : Sensor} {T : Transport} (h : Has s k S T) (hp : S.profile = .TEMP)
    (hrs : S.rs = .Idle) (hfree : T.inflight = none) :
    TickAnswers k s (withBus S.bus (justIssued (.write 0x77 [0x48] true) s)
      (withSensor k { S with rs := .StartConversion, tOp := some s.CLK } { s with draws := s.draws + 1 }))
      .StartConversion :=
  tickAnswers_issue h hp (sampled_idle T hrs hp) (by rw [perform, busWrite, hp]; rfl) hfree

/-- The conversion command has finished (R176). -/
theorem tickAnswers_startConversion {k : Nat} {s : State} {S : Sensor} {T : Transport} (h : Has s k S T)
    (hp : S.profile = .TEMP) (hrs : S.rs = .StartConversion) (hq : pollOf s S T = .Done) :
    TickAnswers k s (withSensor k { S with rs := .WaitConversion, tConv := some s.CLK } s) .WaitConversion :=
  tickAnswers_of_performAll (fun S => { S with tConv := some s.CLK }) h hp
    (by rw [sampled_startConversion T hrs, hq, pollTransition_Done]) rfl rfl

/-- The conversion's delay is over, on a free bus (R178). -/
theorem tickAnswers_waitConversion {k : Nat} {s : State} {S : Sensor} {T : Transport} (h : Has s k S T)
    (hp : S.profile = .TEMP) (hrs : S.rs = .WaitConversion) (hdue : 10 ≤ elapsed s S.tConv) (hfree : T.inflight = none) :
    TickAnswers k s (withBus S.bus (justIssued (.write 0x77 [0x00] true) s)
      (withSensor k { S with rs := .RequestData, tOp := some s.CLK } { s with draws := s.draws + 1 })) .RequestData :=
  tickAnswers_issue h hp ((sampled_waitConversion T hrs hp).trans (if_pos hdue)) (by rw [perform, busWrite, hp]; rfl) hfree

/-- It is not over. -/
theorem tickAnswers_waitConversion_early {k : Nat} {s : State} {S : Sensor} {T : Transport} (h : Has s k S T)
    (hp : S.profile = .TEMP) (hrs : S.rs = .WaitConversion) (hearly : ¬ 10 ≤ elapsed s S.tConv) : TickAnswers k s s S.rs :=
  tickAnswers_quiet h hp (by rw [sampled_waitConversion T hrs hp, if_neg hearly, hrs])

/-- The second command has finished, on a free bus (R180). -/
theorem tickAnswers_requestData {k : Nat} {s : State} {S : Sensor} {T : Transport} (h : Has s k S T)
    (hp : S.profile = .TEMP) (hrs : S.rs = .RequestData) (hq : pollOf s S T = .Done) (hfree : T.inflight = none) :
    TickAnswers k s (withBus S.bus (justIssued (.read 0x77 k 3 true) s)
      (withSensor k { S with rs := .WaitData, tOp := some s.CLK } { s with draws := s.draws + 1 })) .WaitData :=
  tickAnswers_issue h hp (by rw [sampled_requestData T hrs, hq, pollTransition_Done]) (by rw [perform, busRead, hp]; rfl) hfree

/-- The read has finished (R182, R183). -/
theorem tickAnswers_waitData {k : Nat} {s : State} {S : Sensor} {T : Transport} (h : Has s k S T)
    (hp : S.profile = .TEMP) (hrs : S.rs = .WaitData) (hq : pollOf s S T = .Done) :
    TickAnswers k s (withSensor k { decodeStore s.draws S with rs := .Complete } { s with draws := s.draws + 1 }) .Complete :=
  tickAnswers_of_performAll (u := nextDraw s) (decodeStore s.draws) h hp
    (by rw [sampled_waitData T hrs, hq, pollTransition_Done]) rfl rfl

end Sys2Proof.Proofs
end

section
/-! PROOFS. ADVANCE and TICK, state by state (41_sequencer R172 to R193). -/

namespace Sys2Proof.Proofs

open Sys2Proof.Machine Sys2Proof.Laws Sys2Proof.Safety

theorem poll_failed (elOp : Nat) : poll true true elOp = .Failed := rfl

theorem poll_done (elOp : Nat) : poll true false elOp = .Done := rfl

theorem poll_timedOut (err : Bool) {elOp : Nat} (h : 200 < elOp) : poll false err elOp = .TimedOut := by
  rw [poll, Config.tOpMax, if_neg Bool.false_ne_true, if_pos h]

theorem poll_pending (err : Bool) {elOp : Nat} (h : elOp ≤ 200) : poll false err elOp = .Pending := by
  rw [poll, Config.tOpMax, if_neg Bool.false_ne_true, if_neg (Nat.not_lt.mpr h)]

/-- The poll of a sensor whose operation timer is written. -/
theorem pollOf_of_stamp {s : State} {S : Sensor} {t0 : Nat} (T : Transport) (h : S.tOp = some t0) :
    pollOf s S T = poll T.finished T.error (s.CLK - t0) := by
  rw [pollOf, h, elapsed_some]

/-- Settles O11: the branches of the poll, and the reading of a written timer. -/
theorem pollTable : Obligations.PollTable :=
  ⟨fun elOp => ⟨poll_failed elOp, poll_done elOp⟩, fun err _ => poll_timedOut err, fun err _ => poll_pending err,
    fun _ _ T _ => pollOf_of_stamp T⟩

/-- Settles O12, by `tickAnswers_idle`. -/
theorem advanceInIdle : Obligations.AdvanceInIdle :=
  fun _ _ _ _ h hp hrs hfree => (tickAnswers_idle h hp hrs hfree).exec

/-- Settles O13: the poll has failed. -/
theorem advanceOnFailedPoll : Obligations.AdvanceOnFailedPoll := by
  intro k s S T h hp hrs hfin herr
  have hq : pollOf s S T = .Failed := by rw [pollOf, hfin, herr, poll_failed]
  exact (tickAnswers_failed h hp hrs hq).exec

/-- Settles O14: the poll is pending, or has timed out. -/
theorem advanceOnUnfinishedPoll : Obligations.AdvanceOnUnfinishedPoll := by
  intro k s S T t0 h hp hrs hfin hstamp
  have hq : pollOf s S T = poll false T.error (s.CLK - t0) := by rw [pollOf_of_stamp T hstamp, hfin]
  refine ⟨fun hearly => ?_, fun hlate => ?_⟩
  · have hrunning : tickOf S.rs = .Running := by obtain hrs | hrs | hrs := hrs <;> rw [hrs] <;> rfl
    rw [poll_pending _ (by omega)] at hq
    exact hrunning ▸ (tickAnswers_pending h hp hrs hq).exec
  · rw [poll_timedOut _ (by omega)] at hq
    exact (tickAnswers_timedOut h hp hrs hq).exec

/-- Settles O15, by `tickAnswers_startConversion`. -/
theorem advanceDoneStartConversion : Obligations.AdvanceDoneStartConversion :=
  fun _ _ _ _ h hp hrs hfin herr => (tickAnswers_startConversion h hp hrs (pollOf_eq_done_iff.mpr ⟨hfin, herr⟩)).exec

/-- Settles O16: the delay is not over, or it is. -/
theorem advanceInWaitConversion : Obligations.AdvanceInWaitConversion := by
  intro k s S T t0 h hp hrs hstamp
  have hel : elapsed s S.tConv = s.CLK - t0 := by rw [hstamp, elapsed_some]
  refine ⟨fun hearly => ?_, fun hdue hfree => ?_⟩
  · have hanswer := tickAnswers_waitConversion_early h hp hrs (by omega)
    rw [hrs] at hanswer
    exact hanswer.exec
  · exact (tickAnswers_waitConversion h hp hrs (by omega) hfree).exec

/-- Settles O17, by `tickAnswers_requestData`. -/
theorem advanceDoneRequestData : Obligations.AdvanceDoneRequestData :=
  fun _ _ _ _ h hp hrs hfin herr hfree =>
    (tickAnswers_requestData h hp hrs (pollOf_eq_done_iff.mpr ⟨hfin, herr⟩) hfree).exec

/-- A decode step reads the byte a cell holds. -/
theorem cell_of_read {m : Memory} {a : Nat} {v : Byte} (draw : Nat) (h : Memory.read m a = some v) :
    Memory.cell draw m a = v := by
  rw [Memory.cell, h]

/-- The count of an ADC frame, byte by byte (30_encoding R114). -/
theorem frameAdc_bytes (draw : Nat) (m : Memory) :
    (frameAdc draw m).toNat / 65536 = (Memory.cell draw m 0).toNat ∧
      (frameAdc draw m).toNat / 256 % 256 = (Memory.cell draw m 1).toNat ∧
      (frameAdc draw m).toNat % 256 = (Memory.cell draw m 2).toNat := by
  rw [frameAdc, decode24_toNat]
  omega

/-- The compensation of a store whose five coefficients are the device's (43_compensation R250). -/
theorem tempOf_of_words {c : Cal} {c1 c2 c3 c4 c5 : U16} (draw : Nat) (d1 : U24) (h1 : c.C[1] = .word c1)
    (h2 : c.C[2] = .word c2) (h3 : c.C[3] = .word c3) (h4 : c.C[4] = .word c4) (h5 : c.C[5] = .word c5) :
    tempOf draw c d1 = Config.compT c1 c2 c3 c4 c5 (adcOf d1) := by
  simp [tempOf, tempTrusted, CalWord.isWord, CalWord.value, compT, h1, h2, h3, h4, h5]

/-- Settles O18: the count is the frame's, the reading the compensation of it. -/
theorem advanceDoneWaitData : Obligations.AdvanceDoneWaitData := by
  intro k s S T h hp hrs hfin herr
  have hanswer := tickAnswers_waitData h hp hrs (pollOf_eq_done_iff.mpr ⟨hfin, herr⟩)
  obtain ⟨hhi, hmid, hlo⟩ := frameAdc_bytes s.draws S.buf
  refine ⟨frameAdc s.draws S.buf, tempOf s.draws S.cal (frameAdc s.draws S.buf), hanswer.exec, fun b hb => ?_, fun b hb => ?_,
    fun b hb => ?_, fun c1 c2 c3 c4 c5 => tempOf_of_words _ _⟩
  · rw [hhi, cell_of_read _ hb]
  · rw [hmid, cell_of_read _ hb]
  · rw [hlo, cell_of_read _ hb]

/-- Settles O19: in a terminal state a tick has no effects. -/
theorem terminalStatesSticky : Obligations.TerminalStatesSticky := by
  refine ⟨fun k rest => rfl, fun k s S T h hp => ⟨fun hrs => ?_, fun hrs => ?_⟩⟩
  · have hanswer := tickAnswers_quiet h hp (by rw [sampled_complete T hrs, hrs])
    rw [hrs] at hanswer
    exact hanswer.exec
  · have hanswer := tickAnswers_quiet h hp (by rw [sampled_error T hrs, hrs])
    rw [hrs] at hanswer
    exact hanswer.exec

/-- Whatever is reported, a tick is the same step, and reports the state its sensor is in after it. -/
theorem tickAnswers_of_advanceWith {report : ReadState → Result} {k : Nat} {s t : State}
    (h : advanceWith report k s = .next t) :
    ∃ u S, TickAnswers k s u S.rs ∧ t = setRet (report S.rs) u ∧ u.sensors[k]? = some S := by
  obtain ⟨S, hS, ha, hbus⟩ := onSensor_next h
  obtain ⟨T, hT, heffects⟩ := onBus_next hbus
  obtain ⟨v, hv, ht⟩ := andThen_next heffects
  cases ht
  obtain ⟨S', hS', -⟩ := (advanceWith_opFrame (named := none) h).sensor hS
  obtain ⟨V, -, rfl⟩ : ∃ V, v.sensors[k]? = some V ∧ { V with rs := (sampled s S T).1 } = S' := by simpa using hS'
  refine ⟨setPc k (sampled s S T).1 v, _, fun report' => ?_, rfl, hS'⟩
  rw [advanceWith, onSensor_of _ hS ha, onBus_of _ hT, hv, andThen_of_next]

/-- Settles O20: the two operations differ in the report only. -/
theorem tickMapsAdvance : Obligations.TickMapsAdvance := by
  intro k s t h
  obtain ⟨u, S, hanswer, rfl, hS⟩ := tickAnswers_of_advanceWith h
  refine ⟨S, hS, rfl, hanswer.exec.2.trans ?_⟩
  cases S.rs <;> rfl

/-- On a free bus a tick answers, in every state of the pc. -/
theorem tickAnswers_of_free {k : Nat} {s : State} {S : Sensor} {T : Transport} (h : Has s k S T) (hp : S.profile = .TEMP)
    (hfree : T.inflight = none) : ∃ t r, TickAnswers k s t r := by
  -- in a polling state a clean finish is all that is left to show
  have polled : S.rs = .StartConversion ∨ S.rs = .RequestData ∨ S.rs = .WaitData →
      (pollOf s S T = .Done → ∃ t r, TickAnswers k s t r) → ∃ t r, TickAnswers k s t r := by
    intro hrs hdone
    cases hq : pollOf s S T with
    | Done => exact hdone hq
    | Failed => exact ⟨_, _, tickAnswers_failed h hp hrs hq⟩
    | TimedOut => exact ⟨_, _, tickAnswers_timedOut h hp hrs hq⟩
    | Pending => exact ⟨_, _, tickAnswers_pending h hp hrs hq⟩
  cases hrs : S.rs with
  | Idle => exact ⟨_, _, tickAnswers_idle h hp hrs hfree⟩
  | StartConversion => exact polled (.inl hrs) fun hq => ⟨_, _, tickAnswers_startConversion h hp hrs hq⟩
  | WaitConversion =>
    by_cases hdue : 10 ≤ elapsed s S.tConv
    · exact ⟨_, _, tickAnswers_waitConversion h hp hrs hdue hfree⟩
    · exact ⟨_, _, tickAnswers_waitConversion_early h hp hrs hdue⟩
  | RequestData => exact polled (.inr (.inl hrs)) fun hq => ⟨_, _, tickAnswers_requestData h hp hrs hq hfree⟩
  | WaitData => exact polled (.inr (.inr hrs)) fun hq => ⟨_, _, tickAnswers_waitData h hp hrs hq⟩
  | Complete => exact ⟨_, _, tickAnswers_quiet h hp (by rw [sampled_complete T hrs, hrs])⟩
  | Error => exact ⟨_, _, tickAnswers_quiet h hp (by rw [sampled_error T hrs, hrs])⟩

/-- Settles O21: a sound sensor has a bus, and the premise says that it is free. -/
theorem advanceAlwaysSteps : Obligations.AdvanceAlwaysSteps := by
  intro k s S hs hfree hS hp
  have hT : s.buses[S.bus]? = some _ := List.getElem?_eq_getElem (sensorSound_of hs hS).bus
  obtain ⟨t, r, hanswer⟩ := tickAnswers_of_free ⟨hS, hT⟩ hp (hfree S _ ⟨hS, hT⟩)
  obtain ⟨hadvance, htick⟩ := hanswer.exec
  exact ⟨⟨_, hadvance⟩, _, htick⟩

end Sys2Proof.Proofs
end

section
/-! PROOFS. The other operations of a sensor: admission, QUERY, RESET, GET_VALUE (41_sequencer R171, R187 to R190). -/

namespace Sys2Proof.Proofs

open Sys2Proof.Machine Sys2Proof.Laws Sys2Proof.Safety

/-- Settles O23: `terminal` is the predicate. -/
theorem queryReturnsStateAndPredicate : Obligations.QueryReturnsStateAndPredicate := by
  refine ⟨fun k rest => rfl, fun k s S hS hp => ?_⟩
  have hterminal : terminal S.rs = decide (S.rs = .Complete ∨ S.rs = .Error) := by cases S.rs <;> rfl
  exact (onSensor_of _ hS (by rw [hp]; rfl)).trans (by rw [hterminal]; rfl)

/-- RESET puts its sensor back to Idle. -/
theorem execReset_of {k : Nat} {s : State} {S : Sensor} (hS : s.sensors[k]? = some S) (hp : S.profile = .TEMP) :
    execReset k s = .next (setRet .none (withSensor k { S with rs := .Idle } s)) := by
  rw [execReset, onSensor_of _ hS (by rw [hp]; rfl), returnToIdle, setPc, updSensor_withSensor _ hS]

/-- Settles O24, by `execReset_of`. -/
theorem resetChangesOnlyPc : Obligations.ResetChangesOnlyPc :=
  fun _ _ _ => execReset_of

/-- GET_VALUE of a written reading. -/
theorem execGetValue_of {k : Nat} {s : State} {S : Sensor} {v : Reading} (hS : s.sensors[k]? = some S)
    (hv : S.val = some v) : execGetValue k s = .next (setRet (.value v) s) := by
  rw [execGetValue, onSensor_of _ hS rfl, hv]

/-- GET_VALUE of an unwritten one. -/
theorem execGetValue_unwritten {k : Nat} {s : State} {S : Sensor} (hS : s.sensors[k]? = some S) (hv : S.val = none) :
    execGetValue k s = .fault .unwrittenValue := by
  rw [execGetValue, onSensor_of _ hS rfl, hv]

/-- Settles O25: the reading is written or not. -/
theorem getValueReturnsLastReading : Obligations.GetValueReturnsLastReading :=
  fun _ _ _ hS => ⟨fun _ => execGetValue_of hS, execGetValue_unwritten hS⟩

/-- Settles O27: RESET leaves the transaction in flight, and a tick in Idle issues. -/
theorem abandonedTransactionFaults : Obligations.AbandonedTransactionFaults := by
  intro k s S T h hp hbusy
  obtain ⟨hS, hT⟩ := h
  have hS' : (setRet .none (withSensor k { S with rs := .Idle } s)).sensors[k]? = some { S with rs := .Idle } :=
    List.getElem?_set_self (List.getElem?_eq_some_iff.mp hS).1
  exact ⟨_, execReset_of hS hp, rfl, advanceWith_busyIssue _ hS' hp hT hbusy (.inl rfl),
    advanceWith_busyIssue (fun r => .tick (tickOf r)) hS' hp hT hbusy (.inl rfl)⟩

/-- The outcome is not the refusal of a profile. -/
def Admitted (o : Host.Outcome State Fault Refusal) : Prop := o ≠ .refused .notAdmitted

theorem admitted_andThen {o : Host.Outcome State Fault Refusal} {f : State → Host.Outcome State Fault Refusal}
    (ho : Admitted o) (hf : ∀ s, Admitted (f s)) : Admitted (andThen o f) := by
  cases o with
  | next s => exact hf s
  | fault r => exact nofun
  | refused r => exact fun h => ho h

theorem admitted_onBus (b : Nat) (s : State) {f : Transport → Host.Outcome State Fault Refusal} (hf : ∀ T, Admitted (f T)) :
    Admitted (onBus b s f) := by
  unfold onBus
  split
  · exact nofun
  · exact hf _

theorem admitted_onSensor {k : Nat} {adm : Profile → Bool} {s : State} {S : Sensor}
    {f : Sensor → Host.Outcome State Fault Refusal} (hS : s.sensors[k]? = some S) (ha : adm S.profile = true)
    (hf : Admitted (f S)) : Admitted (onSensor k adm s f) := by
  rwa [onSensor_of f hS ha]

theorem admitted_issue (b : Nat) (tr : Transaction) (s : State) : Admitted (issue b tr s) := by
  refine admitted_onBus b s fun T => ?_
  split
  · exact nofun
  · exact nofun

theorem admitted_issueAndWait (B : Blocking) (ph : Phase) (b : Nat) (tr : Transaction) (s : State) :
    Admitted (issueAndWait B ph (issue b tr s)) :=
  admitted_andThen (admitted_issue b tr s) fun _ => nofun

theorem admitted_performAll (k : Nat) (S : Sensor) (es : List Effect) (s : State) : Admitted (performAll k S es s) := by
  induction es generalizing s with
  | nil => exact nofun
  | cons e es ih =>
    refine admitted_andThen ?_ ih
    cases e with
    | issueWrite cmd => exact admitted_issue _ _ _
    | issueRead n => exact admitted_issue _ _ _
    | resetOpTimer | resetConvTimer | decodeAndStore => exact nofun
    | diag kind =>
      refine admitted_onBus _ _ fun T => ?_
      split
      · exact nofun
      · exact nofun

theorem admitted_advanceWith {k : Nat} {s : State} {S : Sensor} (report : ReadState → Result) (hS : s.sensors[k]? = some S)
    (hp : S.profile = .TEMP) : Admitted (advanceWith report k s) :=
  admitted_onSensor hS (by rw [hp]; rfl)
    (admitted_onBus _ _ fun _ => admitted_andThen (admitted_performAll k S _ s) fun _ => nofun)

theorem admitted_execGetValue {k : Nat} {s : State} {S : Sensor} (hS : s.sensors[k]? = some S) :
    Admitted (execGetValue k s) := by
  refine admitted_onSensor hS rfl ?_
  split
  · exact nofun
  · exact nofun

theorem admitted_execInit {k : Nat} {s : State} {S : Sensor} (hS : s.sensors[k]? = some S) : Admitted (execInit k s) := by
  refine admitted_onSensor hS rfl ?_
  split
  · exact nofun
  · unfold initFirst
    split
    · exact admitted_issueAndWait _ _ _ _ _
    · exact admitted_issueAndWait _ _ _ _ _

theorem admitted_execIsInit {k : Nat} {s : State} {S : Sensor} (hS : s.sensors[k]? = some S) (hp : S.profile = .PRES) :
    Admitted (execIsInit k s) := by
  refine admitted_onSensor hS (by rw [hp]; rfl) ?_
  split
  · exact nofun
  · exact nofun

theorem admitted_execReadBlocking {k : Nat} {s : State} {S : Sensor} (hS : s.sensors[k]? = some S) (hp : S.profile = .PRES) :
    Admitted (execReadBlocking k s) :=
  admitted_onSensor hS (by rw [hp]; rfl) (admitted_issueAndWait _ _ _ _ _)

/-- Settles O22: the refusals by `onSensor_notAdmitted`; an admitted operation's own outcomes hold no such refusal. -/
theorem operationsAdmitted : Obligations.OperationsAdmitted := by
  intro k s S hS
  simp only [List.forall_mem_cons, List.not_mem_nil, false_imp_iff, implies_true, and_true]
  refine ⟨fun hp => ?_, fun hp => ?_, fun hp => ?_, fun hp => ?_⟩
  · have hno : admitTemp S.profile = false := by rw [hp]; rfl
    exact ⟨onSensor_notAdmitted _ hS hno, onSensor_notAdmitted _ hS hno, onSensor_notAdmitted _ hS hno,
      onSensor_notAdmitted _ hS hno⟩
  · have hno : admitPres S.profile = false := by rw [hp]; rfl
    exact ⟨onSensor_notAdmitted _ hS hno, onSensor_notAdmitted _ hS hno⟩
  · exact ⟨admitted_advanceWith .readState hS hp, admitted_advanceWith (fun r => .tick (tickOf r)) hS hp,
      admitted_onSensor hS (by rw [hp]; rfl) nofun, admitted_onSensor hS (by rw [hp]; rfl) nofun,
      admitted_execGetValue hS, admitted_execInit hS⟩
  · exact ⟨admitted_execGetValue hS, admitted_execInit hS, admitted_execIsInit hS hp, admitted_execReadBlocking hS hp⟩

/-- A stamp that is written and past reads the exact time since (40_codec R160). -/
theorem elapsed_exact {s : State} {stamp : Option Nat} (hw : stamp ≠ none) (hpast : ∀ t, stamp = some t → t ≤ s.CLK) :
    ∃ t0, stamp = some t0 ∧ t0 + elapsed s stamp = s.CLK := by
  obtain ⟨t0, rfl⟩ := Option.ne_none_iff_exists'.mp hw
  exact ⟨t0, rfl, Nat.add_sub_cancel' (hpast t0 rfl)⟩

/-- Settles O33: the invariant says that the timer is written and not in the future. -/
theorem timersReadAfterWrite : Obligations.TimersReadAfterWrite := by
  intro k s S hs hS
  have hsound := sensorSound_of hs hS
  obtain ⟨hop, hconv⟩ := hsound.stamps
  obtain ⟨hpoll, hwait⟩ := hsound.timers
  exact ⟨fun hrs => elapsed_exact (hpoll hrs) hop, fun hrs => elapsed_exact (hwait hrs) hconv⟩

end Sys2Proof.Proofs
end

section
/-! PROOFS. The shortest successful temperature cycle, line by line (41_sequencer R191, 95_test_vectors V40). -/

namespace Sys2Proof.Proofs

open Sys2Proof.Machine Sys2Proof.Laws Sys2Proof.Safety

/-- A run and one more step. -/
theorem reaches_snoc {s u v : State} {n : Nat} (h : reaches s n u) (hstep : step u = .next v) : reaches s (n + 1) v := by
  induction n generalizing s with
  | zero =>
    cases h
    exact reaches_succ_iff.mpr ⟨v, hstep, rfl⟩
  | succ n ih =>
    obtain ⟨s', hs', hrun⟩ := reaches_succ_iff.mp h
    exact reaches_succ_iff.mpr ⟨s', hs', ih hrun⟩

/-- The last step's share in the count of the ticks. -/
theorem tickCount_snoc {k n : Nat} {s u v : State} (h : reaches s n u) (hstep : step u = .next v) :
    tickCount k (n + 1) s = tickCount k n s + if ticks k u then 1 else 0 := by
  induction n generalizing s with
  | zero =>
    cases h
    rw [tickCount_succ hstep, tickCount, tickCount, Nat.add_comm]
  | succ n ih =>
    obtain ⟨s', hs', hrun⟩ := reaches_succ_iff.mp h
    rw [tickCount_succ hs', tickCount_succ hs', ih hrun, Nat.add_assoc]

/-- A read after a write, of any list of cells. -/
theorem read_write_cell (m : Memory) (a b : Nat) (v : Byte) :
    Memory.read (Memory.write m a v) b = if a = b then some v else Memory.read m b := by
  induction m with
  | nil => rfl
  | cons cell m ih =>
    obtain ⟨a', v'⟩ := cell
    simp only [Memory.write]
    split
    · rfl
    · split
      · next h => subst h; by_cases hb : a = b <;> simp [Memory.read, hb]
      · next h =>
        rw [Memory.read, Memory.read, ih]
        by_cases hb : a' = b
        · rw [if_pos hb, if_pos hb, if_neg (by omega)]
        · rw [if_neg hb, if_neg hb]

/-- The count of a complete ADC reply is its three bytes. -/
theorem frameAdc_receive (draw : Nat) (b0 b1 b2 : Byte) (m : Memory) :
    frameAdc draw (receive 3 [b0, b1, b2] m) = decode24 b0 b1 b2 := by
  have hcells : receive 3 [b0, b1, b2] m = Memory.write (Memory.write (Memory.write m 0 b0) 1 b1) 2 b2 := rfl
  rw [frameAdc, cell_of_read draw (v := b0), cell_of_read draw (v := b1), cell_of_read draw (v := b2)] <;>
    simp [hcells, read_write_cell]

/-- The high two bytes of a count (43_compensation R249). -/
theorem adcOf_decode24 (b0 b1 b2 : Byte) : adcOf (decode24 b0 b1 b2) = decode16 b0 b1 := by
  rw [adcOf, decode24_div, BitVec.ofNat_toNat, BitVec.setWidth_eq]

/-- `u` is reached from `s` in `n` steps, `c` of them ticks of sensor `k`, with the clock moved on by `d`; the sensor is `S` on
bus `T`, the lines `lines` are left, and no diagnostic has been added and no other sensor changed. -/
structure CycleAt (k : Nat) (s : State) (n c d : Nat) (S : Sensor) (T : Transport) (lines : List Line) (u : State) : Prop where
  run : reaches s n u
  ticked : tickCount k n s = c
  has : Has u k S T
  unmarked : u.FAULT = false
  unblocked : u.blk = none
  script : u.script = lines
  clock : u.CLK = s.CLK + d
  diag : u.diag = s.diag
  others : ∀ j, j ≠ k → u.sensors[j]? = s.sensors[j]?

/-- One more step that writes the sensor and its transport. -/
theorem CycleAt.extend {k n c d d' : Nat} {s u v : State} {S S' : Sensor} {T T' : Transport} {lines lines' : List Line}
    (h : CycleAt k s n c d S T lines u) (hstep : step u = .next v) (hS : v.sensors = u.sensors.set k S')
    (hT : v.buses[S.bus]? = some T') (hbus : S'.bus = S.bus)
    (hkept : (v.FAULT, v.blk, v.diag) = (u.FAULT, u.blk, u.diag)) (hscript : v.script = lines') (hclock : v.CLK = s.CLK + d') :
    CycleAt k s (n + 1) (c + if ticks k u then 1 else 0) d' S' T' lines' v := by
  obtain ⟨hmark, hblk, hdiag⟩ : v.FAULT = u.FAULT ∧ v.blk = u.blk ∧ v.diag = u.diag := by simpa using hkept
  obtain ⟨hSk, -⟩ := h.has
  exact
    { run := reaches_snoc h.run hstep
      ticked := by rw [tickCount_snoc h.run hstep, h.ticked]
      has := ⟨by rw [hS, List.getElem?_set_self (List.getElem?_eq_some_iff.mp hSk).1], by rw [hbus, hT]⟩
      unmarked := hmark.trans h.unmarked
      unblocked := hblk.trans h.unblocked
      script := hscript
      clock := hclock
      diag := hdiag.trans h.diag
      others := fun j hj => by rw [hS, List.getElem?_set_ne hj.symm, h.others j hj] }

/-- The host's line with a TICK. -/
theorem CycleAt.tick {k n c d : Nat} {s u v : State} {S S' : Sensor} {T T' : Transport} {rest : List Line} {r : ReadState}
    (h : CycleAt k s n c d S T (.host (.bytes k [0x02]) :: rest) u) (hanswer : TickAnswers k { u with script := rest } v r)
    (hS : v.sensors = u.sensors.set k S') (hT : v.buses[S.bus]? = some T') (hbus : S'.bus = S.bus)
    (hkept : (v.FAULT, v.blk, v.diag) = (u.FAULT, u.blk, u.diag)) (hscript : v.script = rest) (hclock : v.CLK = u.CLK) :
    CycleAt k s (n + 1) (c + 1) d S' T' rest (setRet (.tick (tickOf r)) v) := by
  have hticks : ticks k u = true := by simp [ticks, taken, h.unblocked, h.script, decode, decodeOpcode]
  have hnext := h.extend (v := setRet (.tick (tickOf r)) v)
    ((step_host h.unmarked h.unblocked h.script rfl).trans hanswer.exec.2) hS hT hbus hkept hscript (hclock.trans h.clock)
  rwa [if_pos hticks] at hnext

/-- A line of the clock or of a transport. -/
theorem CycleAt.environment {k n c d d' : Nat} {s u v : State} {S S' : Sensor} {T T' : Transport} {l : Line}
    {rest : List Line} (h : CycleAt k s n c d S T (l :: rest) u) (hl : ∀ call, l ≠ .host call)
    (hstep : takeLine l rest u = .next v) (hS : v.sensors = u.sensors.set k S') (hT : v.buses[S.bus]? = some T')
    (hbus : S'.bus = S.bus) (hkept : (v.FAULT, v.blk, v.diag) = (u.FAULT, u.blk, u.diag)) (hscript : v.script = rest)
    (hclock : v.CLK = s.CLK + d') : CycleAt k s (n + 1) c d' S' T' rest v := by
  have hticks : ticks k u ≠ true := by
    have hnone : taken u = none := by
      rw [taken, h.unblocked, h.script]
      cases l with
      | host call => exact absurd rfl (hl call)
      | _ => rfl
    simp [ticks, hnone]
  have hnext := h.extend ((step_takeLine h.unmarked h.unblocked h.script).trans hstep) hS hT hbus hkept hscript hclock
  rwa [if_neg hticks] at hnext

/-- A sensor's place, written with what stands there. -/
theorem sensors_set_same {s : State} {k : Nat} {S : Sensor} (hS : s.sensors[k]? = some S) : s.sensors = s.sensors.set k S := by
  obtain ⟨hk, rfl⟩ := List.getElem?_eq_some_iff.mp hS
  rw [List.set_getElem_self]

/-- The line of a transport that completes a write of one byte. -/
theorem CycleAt.okWrite {k n c d m : Nat} {s u : State} {S : Sensor} {T : Transport} {rest : List Line} {addr : BusAddr}
    {byte : Byte} {stop : Bool} (h : CycleAt k s n c d S T (.bus S.bus (.okWrite m) :: rest) u)
    (hi : T.inflight = some (.write addr [byte] stop)) (hm : m ≤ 1) :
    ∃ v, CycleAt k s (n + 1) c d S (completed false T.errcode m) rest v := by
  obtain ⟨hS, hT⟩ := h.has
  exact ⟨_, h.environment nofun (complete_okWrite (s := { u with script := rest }) hT hi hm) (sensors_set_same hS)
    (setBus_same S.bus _ T { u with script := rest } hT) rfl rfl rfl h.clock⟩

/-- The line of a transport that completes a read of three bytes. -/
theorem CycleAt.okRead {k n c d : Nat} {s u : State} {S : Sensor} {T : Transport} {rest : List Line} {addr : BusAddr}
    {data : List Byte} {stop : Bool} (h : CycleAt k s n c d S T (.bus S.bus (.okRead data) :: rest) u)
    (hi : T.inflight = some (.read addr k 3 stop)) (hd : data.length = 3) :
    ∃ v, CycleAt k s (n + 1) c d { S with buf := receive 3 data S.buf } (completed false T.errcode data.length) rest v := by
  obtain ⟨hS, hT⟩ := h.has
  exact ⟨_, h.environment nofun (complete_okRead (s := { u with script := rest }) hT hi hS hd.le (by decide)) rfl
    (setBus_same S.bus _ T (withSensor k _ { u with script := rest }) hT) rfl rfl rfl h.clock⟩

/-- The clock's line. -/
theorem CycleAt.clockLine {k n c d e : Nat} {s u : State} {S : Sensor} {T : Transport} {rest : List Line}
    (h : CycleAt k s n c d S T (.clock e :: rest) u) : ∃ v, CycleAt k s (n + 1) c (d + e) S T rest v := by
  obtain ⟨hS, hT⟩ := h.has
  exact ⟨_, h.environment nofun rfl (sensors_set_same hS) hT rfl rfl rfl (by simp [h.clock, Nat.add_assoc])⟩

/-- The line with a TICK that issues a transaction. -/
theorem CycleAt.tickIssue {k n c d : Nat} {s u : State} {S : Sensor} {T : Transport} {rest : List Line} {r : ReadState}
    {tr : Transaction} (h : CycleAt k s n c d S T (.host (.bytes k [0x02]) :: rest) u)
    (hanswer : let u' : State := { u with script := rest }
      TickAnswers k u' (withBus S.bus (justIssued tr u')
        (withSensor k { S with rs := r, tOp := some u'.CLK } { u' with draws := u'.draws + 1 })) r) :
    ∃ v T', T'.inflight = some tr ∧
      CycleAt k s (n + 1) (c + 1) d { S with rs := r, tOp := some (s.CLK + d) } T' rest v := by
  obtain ⟨-, hT⟩ := h.has
  rw [← h.clock]
  exact ⟨_, _, rfl, h.tick hanswer rfl
    (setBus_same S.bus _ T (withSensor k _ { u with draws := _, script := rest }) hT) rfl rfl rfl rfl⟩

/-- The line with the TICK that sees the conversion command finished. -/
theorem CycleAt.tickStartConversion {k n c d : Nat} {s u : State} {S : Sensor} {T : Transport} {rest : List Line}
    (h : CycleAt k s n c d S T (.host (.bytes k [0x02]) :: rest) u) (hp : S.profile = .TEMP) (hrs : S.rs = .StartConversion)
    (hdone : T.finished = true ∧ T.error = false) :
    ∃ v, CycleAt k s (n + 1) (c + 1) d { S with rs := .WaitConversion, tConv := some (s.CLK + d) } T rest v := by
  rw [← h.clock]
  exact ⟨_, h.tick (tickAnswers_startConversion h.has hp hrs (pollOf_eq_done_iff.mpr hdone)) rfl h.has.2 rfl rfl rfl rfl⟩

/-- The line with the TICK that sees the read finished. -/
theorem CycleAt.tickWaitData {k n c d : Nat} {s u : State} {S : Sensor} {T : Transport} {rest : List Line}
    (h : CycleAt k s n c d S T (.host (.bytes k [0x02]) :: rest) u) (hp : S.profile = .TEMP) (hrs : S.rs = .WaitData)
    (hdone : T.finished = true ∧ T.error = false) :
    ∃ v draw, v.ret = .tick .Success ∧
      CycleAt k s (n + 1) (c + 1) d { decodeStore draw S with rs := .Complete } T rest v :=
  ⟨_, _, rfl, h.tick (tickAnswers_waitData h.has hp hrs (pollOf_eq_done_iff.mpr hdone)) rfl h.has.2 rfl rfl rfl rfl⟩

/-- The count of a sensor that decodes a complete reply. -/
theorem decodeStore_rawD1 (draw : Nat) (b0 b1 b2 : Byte) (m : Memory) (S : Sensor) :
    (decodeStore draw { S with buf := receive 3 [b0, b1, b2] m }).rawD1 = some (b0 ++ b1 ++ b2) :=
  congrArg some (frameAdc_receive draw b0 b1 b2 m)

/-- Its reading, where the five coefficients are the device's. -/
theorem decodeStore_val (draw : Nat) (b0 b1 b2 : Byte) (m : Memory) (S : Sensor) {c1 c2 c3 c4 c5 : U16}
    (h1 : S.cal.C[1] = .word c1) (h2 : S.cal.C[2] = .word c2) (h3 : S.cal.C[3] = .word c3) (h4 : S.cal.C[4] = .word c4)
    (h5 : S.cal.C[5] = .word c5) :
    (decodeStore draw { S with buf := receive 3 [b0, b1, b2] m }).val =
      some (.temp (Config.compT c1 c2 c3 c4 c5 (b0 ++ b1))) := by
  rw [decodeStore, tempOf_of_words draw _ h1 h2 h3 h4 h5, frameAdc_receive, adcOf_decode24, decode16]

/-- The last two lines of a cycle: the read completes, and the TICK decodes and stores. -/
theorem CycleAt.readAndDecode {k n c d : Nat} {s u : State} {S : Sensor} {T : Transport} {rest : List Line} {addr : BusAddr}
    {b0 b1 b2 : Byte} {stop : Bool}
    (h : CycleAt k s n c d S T (.bus S.bus (.okRead [b0, b1, b2]) :: .host (.bytes k [0x02]) :: rest) u)
    (hp : S.profile = .TEMP) (hrs : S.rs = .WaitData) (hi : T.inflight = some (.read addr k 3 stop)) :
    ∃ v S' T', CycleAt k s (n + 2) (c + 1) d S' T' rest v ∧ v.ret = .tick .Success ∧ S'.rs = .Complete ∧
      S'.rawD1 = some (b0 ++ b1 ++ b2) ∧ S'.cal = S.cal ∧
      ∀ c1 c2 c3 c4 c5, S.cal.C[1] = .word c1 → S.cal.C[2] = .word c2 → S.cal.C[3] = .word c3 → S.cal.C[4] = .word c4 →
        S.cal.C[5] = .word c5 → S'.val = some (.temp (Config.compT c1 c2 c3 c4 c5 (b0 ++ b1))) := by
  obtain ⟨u1, at1⟩ := h.okRead hi rfl
  obtain ⟨u2, draw, hret, at2⟩ := at1.tickWaitData hp hrs ⟨rfl, rfl⟩
  exact ⟨u2, _, _, at2, hret, rfl, decodeStore_rawD1 draw b0 b1 b2 S.buf S, rfl,
    fun c1 c2 c3 c4 c5 => decodeStore_val draw b0 b1 b2 S.buf S⟩

/-- Settles O32: the nine lines. -/
theorem tempCycleSucceeds : Obligations.TempCycleSucceeds := by
  intro k d n1 n2 b0 b1 b2 s S T rest h hF hB hp hrs hfree hd hn1 hn2 hscript
  have at0 : CycleAt k s 0 0 0 S T _ s := ⟨rfl, rfl, h, hF, hB, hscript, rfl, rfl, fun _ _ => rfl⟩
  obtain ⟨u1, T1, hT1, at1⟩ := at0.tickIssue (tickAnswers_idle at0.has hp hrs hfree)
  obtain ⟨u2, at2⟩ := at1.okWrite hT1 hn1
  obtain ⟨u3, at3⟩ := at2.tickStartConversion hp rfl ⟨rfl, rfl⟩
  obtain ⟨u4, at4⟩ := at3.clockLine
  have hdue : 10 ≤ elapsed u4 (some (s.CLK + 0)) := by rw [elapsed_some, at4.clock]; omega
  obtain ⟨u5, T5, hT5, at5⟩ := at4.tickIssue (tickAnswers_waitConversion at4.has hp rfl hdue rfl)
  obtain ⟨u6, at6⟩ := at5.okWrite hT5 hn2
  obtain ⟨u7, T7, hT7, at7⟩ := at6.tickIssue
    (tickAnswers_requestData at6.has hp rfl (pollOf_eq_done_iff.mpr ⟨rfl, rfl⟩) rfl)
  obtain ⟨u9, S9, T9, at9, hret, hcomplete, hcount, hcal, hval⟩ := at7.readAndDecode hp rfl hT7
  exact ⟨u9, S9, at9.run, at9.ticked, hret, at9.script, by rw [at9.clock, Nat.zero_add], at9.diag, at9.others, at9.has.1,
    hcomplete, hcount, hcal, hval⟩

end Sys2Proof.Proofs
end

section
/-! SUPPORT. What one micro-step does, phase by phase (42_blocking_ops R212 to R229). -/

namespace Sys2Proof.Proofs

open Sys2Proof.Machine Sys2Proof.Laws Sys2Proof.Safety

/-- The diagnostics of a wait that ended with `r` (42_blocking_ops R213). -/
def waitEvents (r : PollResult) (T : Transport) : List DiagEvent :=
  match r with
  | .Failed => [.busErrorSeen T.errcode]
  | .TimedOut => [.timeoutSeen]
  | .Done | .Pending => []

theorem waitDiag_eq (r : PollResult) (T : Transport) (s : State) :
    waitDiag r T s = { s with diag := s.diag ++ waitEvents r T } := by
  cases r <;> simp [waitDiag, waitEvents, emitDiag]

/-- The block has nothing to do at this sample: its wait is pending, or its delay is not over. -/
def Held (s : State) (S : Sensor) (T : Transport) (ph : Phase) : Prop :=
  match ph with
  | .resetWait | .cmdWait _ | .dataWait _ | .measureWait | .measureData => pollOf s S T = .Pending
  | .measureDelay => elapsed s S.tConv < S.profile.tConvMin
  | .resetGap | .cmdIssue _ | .cmdGap _ | .dataIssue _ => False

section

variable {B : Blocking} {s : State} {S : Sensor} {T : Transport} (h : Has s B.sensor S T)

include h

/-- A micro-step with nothing to do changes nothing. -/
theorem microStep_held (hheld : Held s S T B.phase) : microStep B s = .next s := by
  rw [microStep, onSensor_of _ h.1 rfl, onBus_of _ h.2]
  cases hph : B.phase with
  | resetWait | cmdWait w | dataWait w | measureWait | measureData =>
    rw [hph] at hheld
    simp only [show pollOf s S T = .Pending from hheld]
  | measureDelay =>
    rw [hph] at hheld
    exact if_neg (Nat.not_le.mpr hheld)
  | resetGap | cmdIssue w | cmdGap w | dataIssue w => rw [hph] at hheld; exact hheld.elim

/-- The delay of 0 ms after the reset pulse (log 17). -/
theorem microStep_resetGap (hph : B.phase = .resetGap) : microStep B s = .next (atPhase B (.cmdIssue 0) s) := by
  rw [microStep, onSensor_of _ h.1 rfl, onBus_of _ h.2, hph]
  simp only [gapLoop_eq]

/-- The delay of 0 ms after a word's command. -/
theorem microStep_cmdGap {w : Nat} (hph : B.phase = .cmdGap w) : microStep B s = .next (atPhase B (.dataIssue w) s) := by
  rw [microStep, onSensor_of _ h.1 rfl, onBus_of _ h.2, hph]
  simp only [gapLoop_eq]

theorem microStep_cmdIssue {w : Nat} (hph : B.phase = .cmdIssue w) :
    microStep B s = issueAndWait B (.cmdWait w) (busWrite S (wordCommand S.profile w) s) := by
  rw [microStep, onSensor_of _ h.1 rfl, onBus_of _ h.2, hph]

theorem microStep_dataIssue {w : Nat} (hph : B.phase = .dataIssue w) :
    microStep B s = issueAndWait B (.dataWait w) (busRead B.sensor S (wordLength S.profile) s) := by
  rw [microStep, onSensor_of _ h.1 rfl, onBus_of _ h.2, hph]

/-- The delay of READ_BLOCKING is over. -/
theorem microStep_measureDelay (hph : B.phase = .measureDelay) (hdue : S.profile.tConvMin ≤ elapsed s S.tConv) :
    microStep B s = issueAndWait B .measureData (busRead B.sensor S Config.nMeas s) := by
  rw [microStep, onSensor_of _ h.1 rfl, onBus_of _ h.2, hph]
  exact if_pos hdue

/-- The wait of the reset pulse or of a word's command ends, well or not. -/
theorem microStep_waitEnd {w : Nat} {next : Phase}
    (hph : (B.phase = .resetWait ∧ next = .cmdIssue 0) ∨ (B.phase = .cmdWait w ∧ next = .dataIssue w))
    (hq : pollOf s S T ≠ .Pending) :
    microStep B s = .next { withSensor B.sensor { S with tConv := some s.CLK } s with
      diag := s.diag ++ waitEvents (pollOf s S T) T, blk := some { B with phase := next } } := by
  have hend : microStep B s = .next (atPhase B next (stampConv B.sensor (waitDiag (pollOf s S T) T s))) := by
    rw [microStep, onSensor_of _ h.1 rfl, onBus_of _ h.2]
    obtain ⟨hph, rfl⟩ | ⟨hph, rfl⟩ := hph
    · rw [hph]
      cases hp : pollOf s S T with
      | Pending => exact absurd hp hq
      | Done | Failed | TimedOut => simp only [beginGap_eq]
    · rw [hph]
      cases hp : pollOf s S T with
      | Pending => exact absurd hp hq
      | Done | Failed | TimedOut => simp only [beginGap_eq]
  rw [hend, stampConv, updSensor_withSensor _ ((waitDiag_sensors ..).symm ▸ h.1), waitDiag_eq]
  rfl

/-- The wait of a word's read ends, well or not. -/
theorem microStep_dataWait {w : Nat} (hph : B.phase = .dataWait w) (hq : pollOf s S T ≠ .Pending) :
    microStep B s = .next (wordEnd B S T w (pollOf s S T) s) := by
  rw [microStep, onSensor_of _ h.1 rfl, onBus_of _ h.2, hph]
  cases hp : pollOf s S T with
  | Pending => exact absurd hp hq
  | Done | Failed | TimedOut => rfl

/-- The measurement request has finished. -/
theorem microStep_measureWait_done (hph : B.phase = .measureWait) (hq : pollOf s S T = .Done) :
    microStep B s = .next { withSensor B.sensor { S with tConv := some s.CLK } s with
      blk := some { B with phase := .measureDelay } } := by
  rw [microStep, onSensor_of _ h.1 rfl, onBus_of _ h.2, hph]
  simp only [hq, stampConv, updSensor_withSensor _ h.1]
  rfl

/-- The measurement's read has finished. -/
theorem microStep_measureData_done (hph : B.phase = .measureData) (hq : pollOf s S T = .Done) :
    microStep B s = .next { withSensor B.sensor (measureStore s.draws S) s with
      blk := none, ret := .tick .Success, draws := s.draws + 1 } := by
  rw [microStep, onSensor_of _ h.1 rfl, onBus_of _ h.2, hph]
  simp only [hq, updSensor_withSensor _ h.1]
  rfl

/-- A wait of READ_BLOCKING fails or times out. -/
theorem microStep_measure_failed (hph : B.phase = .measureWait ∨ B.phase = .measureData)
    (hq : pollOf s S T = .Failed ∨ pollOf s S T = .TimedOut) :
    microStep B s = .next { s with
      diag := s.diag ++ waitEvents (pollOf s S T) T, blk := none, ret := .tick .Failure } := by
  rw [microStep, onSensor_of _ h.1 rfl, onBus_of _ h.2]
  have hfail : finish (.tick .Failure) (waitDiag (pollOf s S T) T s) = { s with
      diag := s.diag ++ waitEvents (pollOf s S T) T, blk := none, ret := .tick .Failure } := by
    rw [waitDiag_eq]; rfl
  rw [← hfail]
  obtain hph | hph := hph
  · rw [hph]
    obtain hq | hq := hq <;> simp only [hq]
  · rw [hph]
    obtain hq | hq := hq <;> simp only [hq]

end

/-- An issue of a blocking operation on a free bus, in the statements' words. -/
theorem issueAndWait_free {B : Blocking} {s : State} {S : Sensor} {T : Transport} (h : Has s B.sensor S T)
    (hfree : T.inflight = none) (ph : Phase) (tr : Transaction) :
    issueAndWait B ph (issue S.bus tr s) =
      .next { withBus S.bus (justIssued tr s) (withSensor B.sensor { S with tOp := some s.CLK } s) with
        blk := some { B with phase := ph }, draws := s.draws + 1 } := by
  rw [issueAndWait, issue_free tr h.2 hfree, andThen_of_next, stampOp,
    updSensor_withSensor _ (s := nextDraw (setBus _ _ s)) h.1]
  rfl

end Sys2Proof.Proofs
end

section
/-! PROOFS. While a blocking operation runs, the host waits (42_blocking_ops R212). -/

namespace Sys2Proof.Proofs

open Sys2Proof.Machine Sys2Proof.Laws Sys2Proof.Safety

/-- A step while a blocking operation runs, at a line. -/
theorem step_heldLine {s : State} {B : Blocking} {l : Line} {rest : List Line} (hF : s.FAULT = false)
    (hB : s.blk = some B) (hs : s.script = l :: rest) : step s = heldLine B l rest s := by
  simp [step, runScript, hF, hB, hs]

/-- The same at the end of the script. -/
theorem step_of_blocking_nil {s : State} {B : Blocking} (hF : s.FAULT = false) (hB : s.blk = some B)
    (hs : s.script = []) : step s = microStep B s := by
  simp [step, runScript, hF, hB, hs]

/-- Settles O9: each line by what `heldLine` does with it. -/
theorem hostHeldWhileBlocking : Obligations.HostHeldWhileBlocking := by
  intro s B hF hB
  refine ⟨step_of_blocking_nil hF hB, fun l rest hs => ?_⟩
  rw [step_heldLine hF hB hs]
  refine ⟨?_, ?_, ?_, fun hblock hclock hbus => ?_⟩
  · rintro rfl; rfl
  · rintro d rfl; rfl
  · rintro b c rfl; rfl
  · cases l with
    | host | construct | setDensity | derive => rfl
    | block => exact absurd rfl hblock
    | clock d => exact absurd rfl (hclock d)
    | bus b c => exact absurd rfl (hbus b c)

/-- While a blocking operation runs, a step is a micro-step exactly where `microSteps` says so; otherwise the clock or a
transport moves. -/
theorem step_of_blocking {s : State} {B : Blocking} (hF : s.FAULT = false) (hB : s.blk = some B) :
    ∃ rest, let u : State := { s with script := rest }
      (step s = microStep B u) ∨
      (microSteps s = false ∧ ((∃ d, step s = .next (advanceClock d u)) ∨ ∃ b c, step s = complete b c u)) := by
  cases hs : s.script with
  | nil => exact ⟨[], .inl (hs ▸ step_of_blocking_nil hF hB hs)⟩
  | cons l rest =>
    have hstep := step_heldLine hF hB hs
    cases l with
    | clock d => exact ⟨rest, .inr ⟨by simp [microSteps, hB, hs], .inl ⟨d, hstep⟩⟩⟩
    | bus b c => exact ⟨rest, .inr ⟨by simp [microSteps, hB, hs], .inr ⟨b, c, hstep⟩⟩⟩
    | block => exact ⟨rest, .inl hstep⟩
    | host | construct | setDensity | derive => exact ⟨s.script, .inl hstep⟩

end Sys2Proof.Proofs
end

section
/-! PROOFS. Every blocking operation returns (42_blocking_ops R212, 70_reset_and_hazards R317): each phase is held until a deadline
at most, and every micro-step past it lowers the rank of the phase. -/

namespace Sys2Proof.Proofs

open Sys2Proof.Machine Sys2Proof.Laws Sys2Proof.Safety

/-- How far a blocking operation is from its end: every micro-step that does something lowers it, for word numbers below 8. -/
def phaseRank (ph : Phase) : Nat :=
  match ph with
  | .resetWait => 42
  | .resetGap => 41
  | .cmdIssue w => 5 * (8 - w)
  | .cmdWait w => 5 * (8 - w) - 1
  | .cmdGap w => 5 * (8 - w) - 2
  | .dataIssue w => 5 * (8 - w) - 3
  | .dataWait w => 5 * (8 - w) - 4
  | .measureWait => 3
  | .measureDelay => 2
  | .measureData => 1

/-- The time from which on the phase is not held. -/
def deadline (S : Sensor) (ph : Phase) : Nat :=
  match ph with
  | .resetWait | .cmdWait _ | .dataWait _ | .measureWait | .measureData => S.tOp.getD 0 + Config.tOpMax + 1
  | .measureDelay => S.tConv.getD 0 + S.profile.tConvMin
  | .resetGap | .cmdIssue _ | .cmdGap _ | .dataIssue _ => 0

/-- A poll of a written timer is not pending after its bound. -/
theorem lt_of_pollOf_eq_pending {s : State} {S : Sensor} {T : Transport} (hw : S.tOp ≠ none)
    (hq : pollOf s S T = .Pending) : s.CLK < S.tOp.getD 0 + Config.tOpMax + 1 := by
  obtain ⟨t0, ht⟩ := Option.ne_none_iff_exists'.mp hw
  by_contra hlate
  rw [ht, Option.getD_some] at hlate
  have hel : Config.tOpMax < s.CLK - t0 := by omega
  rw [pollOf_of_stamp T ht, poll, if_pos hel] at hq
  repeat' split at hq
  all_goals cases hq

/-- A sound phase is held only before its deadline. -/
theorem lt_deadline_of_held {s : State} {S : Sensor} {T : Transport} {ph : Phase} (hsound : phaseSound S ph)
    (hheld : Held s S T ph) : s.CLK < deadline S ph := by
  cases ph with
  | resetWait => obtain ⟨-, -, hw⟩ := hsound; exact lt_of_pollOf_eq_pending hw hheld
  | cmdWait w => obtain ⟨-, -, hw⟩ := hsound; exact lt_of_pollOf_eq_pending hw hheld
  | dataWait w => obtain ⟨-, -, hw⟩ := hsound; exact lt_of_pollOf_eq_pending hw hheld
  | measureWait => obtain ⟨-, hw⟩ := hsound; exact lt_of_pollOf_eq_pending hw hheld
  | measureData => obtain ⟨-, hw⟩ := hsound; exact lt_of_pollOf_eq_pending hw hheld
  | measureDelay =>
    obtain ⟨-, hw⟩ := hsound
    obtain ⟨t0, ht⟩ := Option.ne_none_iff_exists'.mp hw
    rw [Held, ht, elapsed_some] at hheld
    rw [deadline, ht, Option.getD_some]
    omega
  | resetGap | cmdIssue | cmdGap | dataIssue => exact hheld.elim

/-- The blocking operation has ended, or stands at a phase of lower rank. -/
def MovedOn (R : Nat) (t : State) : Prop := t.blk = none ∨ ∃ B, t.blk = some B ∧ phaseRank B.phase < R

theorem nCal_le (p : Profile) : p.nCal ≤ 8 := by cases p <;> decide

/-- A poll that is not pending. -/
theorem pollOf_cases {s : State} {S : Sensor} {T : Transport} (hq : pollOf s S T ≠ .Pending) :
    pollOf s S T = .Done ∨ pollOf s S T = .Failed ∨ pollOf s S T = .TimedOut := by
  cases hp : pollOf s S T with
  | Pending => exact absurd hp hq
  | Done | Failed | TimedOut => simp

/-- A micro-step of a sound phase that is not held moves on. -/
theorem microStep_movedOn {B : Blocking} {s t : State} {S : Sensor} {T : Transport} (h : Has s B.sensor S T)
    (hsound : phaseSound S B.phase) (hheld : ¬ Held s S T B.phase) (hstep : microStep B s = .next t) :
    MovedOn (phaseRank B.phase) t := by
  have hnCal := nCal_le S.profile
  -- it is enough to say which phase the micro-step leads to
  have leads : ∀ {ph : Phase} {u : State}, u.blk = some { B with phase := ph } → phaseRank ph < phaseRank B.phase →
      microStep B s = .next u → MovedOn (phaseRank B.phase) t := by
    intro ph u hu hlt hu'
    cases hstep.symm.trans hu'
    exact .inr ⟨_, hu, hlt⟩
  have issuing : ∀ {ph : Phase} {o : Host.Outcome State Fault Refusal}, microStep B s = issueAndWait B ph o →
      phaseRank ph < phaseRank B.phase → MovedOn (phaseRank B.phase) t := by
    intro ph o ho hlt
    obtain ⟨u, -, rfl⟩ := issueAndWait_next (ho.symm.trans hstep)
    exact .inr ⟨_, rfl, hlt⟩
  have failing : B.phase = .measureWait ∨ B.phase = .measureData →
      pollOf s S T = .Failed ∨ pollOf s S T = .TimedOut → MovedOn (phaseRank B.phase) t := by
    intro hph hq
    cases hstep.symm.trans (microStep_measure_failed h hph hq)
    exact .inl rfl
  cases hph : B.phase with
  | resetWait =>
    rw [hph] at hheld leads
    exact leads rfl (by decide) (microStep_waitEnd h (w := 0) (.inl ⟨hph, rfl⟩) hheld)
  | resetGap =>
    rw [hph] at leads
    exact leads rfl (by decide) (microStep_resetGap h hph)
  | cmdIssue w =>
    rw [hph] at hsound issuing
    obtain ⟨hw, -⟩ := hsound
    exact issuing (microStep_cmdIssue h hph) (by simp only [phaseRank]; omega)
  | cmdWait w =>
    rw [hph] at hsound hheld leads
    obtain ⟨hw, -⟩ := hsound
    exact leads rfl (by simp only [phaseRank]; omega) (microStep_waitEnd h (.inr ⟨hph, rfl⟩) hheld)
  | cmdGap w =>
    rw [hph] at hsound leads
    obtain ⟨hw, -⟩ := hsound
    exact leads rfl (by simp only [phaseRank]; omega) (microStep_cmdGap h hph)
  | dataIssue w =>
    rw [hph] at hsound issuing
    obtain ⟨hw, -⟩ := hsound
    exact issuing (microStep_dataIssue h hph) (by simp only [phaseRank]; omega)
  | dataWait w =>
    rw [hph] at hsound hheld
    obtain ⟨hw, -⟩ := hsound
    cases hstep.symm.trans (microStep_dataWait h hph hheld)
    obtain hend | ⟨B', hB', hph'⟩ := wordEnd_blk B S T w (pollOf s S T) s
    · exact .inl hend
    · exact .inr ⟨B', hB', by rw [hph']; simp only [phaseRank]; omega⟩
  | measureWait =>
    rw [hph] at hheld leads failing
    obtain hq | hq := pollOf_cases hheld
    · exact leads rfl (by decide) (microStep_measureWait_done h hph hq)
    · exact failing (.inl rfl) hq
  | measureDelay =>
    rw [hph] at hheld issuing
    exact issuing (microStep_measureDelay h hph (Nat.not_lt.mp hheld)) (by decide)
  | measureData =>
    rw [hph] at hheld failing
    obtain hq | hq := pollOf_cases hheld
    · cases hstep.symm.trans (microStep_measureData_done h hph hq)
      exact .inl rfl
    · exact failing (.inr rfl) hq

/-- The blocking operation `B` runs, and its phase is held at most until `d`. -/
def StandsUntil (B : Blocking) (d : Nat) (s : State) : Prop :=
  s.blk = some B ∧ ∃ S, s.sensors[B.sensor]? = some S ∧ deadline S B.phase = d

/-- A completion leaves the blocking operation and every deadline. -/
theorem complete_keeps_deadline {b k : Nat} {c : Completion} {s t : State} {S : Sensor} (hS : s.sensors[k]? = some S)
    (h : complete b c s = .next t) :
    t.blk = s.blk ∧ ∃ S', t.sensors[k]? = some S' ∧ ∀ ph, deadline S' ph = deadline S ph := by
  -- a completion writes at most a buffer, which no deadline reads
  have filled : ∀ (dest : Nat) (f : Memory → Memory) (u : State), u.sensors = s.sensors → ∃ S',
      (updSensor dest (fun S => { S with buf := f S.buf }) u).sensors[k]? = some S' ∧
        ∀ ph, deadline S' ph = deadline S ph := by
    intro dest f u hu
    rw [updSensor_lookup, hu, hS]
    split
    · exact ⟨_, rfl, fun ph => by cases ph <;> rfl⟩
    · exact ⟨S, rfl, fun _ => rfl⟩
  obtain ⟨T, tr, -, -, h⟩ := complete_next h
  obtain ⟨_, _, _, _, _, _, _, rfl⟩ | ⟨_, dest, n, _, data, _, _, _, _, rfl⟩ | ⟨_, _, _, _, _, _, _, _, rfl⟩ |
    ⟨_, dest, _, _, _, _, _, _, _, rfl⟩ := h
  · exact ⟨rfl, S, hS, fun _ => rfl⟩
  · exact ⟨rfl, filled dest (receive n data) _ rfl⟩
  · exact ⟨rfl, S, hS, fun _ => rfl⟩
  · exact ⟨rfl, filled dest (fun m => Memory.eraseFrom m 0 Config.bufSize) _ rfl⟩

/-- A step while a blocking operation runs moves it on, or leaves it where it is; a micro-step does the latter only before the
deadline. -/
theorem step_standsUntil {B : Blocking} {d : Nat} {s t : State} (hs : MachineInv s) (hB : StandsUntil B d s)
    (h : step s = .next t) :
    MovedOn (phaseRank B.phase) t ∨ StandsUntil B d t ∧ (microSteps s = true → s.CLK < d) := by
  obtain ⟨hblk, S, hS, rfl⟩ := hB
  obtain ⟨rest, hstep | ⟨hno, ⟨e, hstep⟩ | ⟨b, c, hstep⟩⟩⟩ := step_of_blocking hs.unmarked hblk
  · rw [hstep] at h
    obtain ⟨S', hS', hsound⟩ := hs.blocking B hblk
    obtain rfl : S = S' := Option.some.inj (hS.symm.trans hS')
    obtain ⟨T, hT⟩ : ∃ T, s.buses[S.bus]? = some T := ⟨_, List.getElem?_eq_getElem (sensorSound_of hs hS).bus⟩
    have hHas : Has { s with script := rest } B.sensor S T := ⟨hS, hT⟩
    by_cases hheld : Held { s with script := rest } S T B.phase
    · cases h.symm.trans (microStep_held hHas hheld)
      exact .inr ⟨⟨hblk, S, hS, rfl⟩, fun _ => lt_deadline_of_held hsound hheld⟩
    · exact .inl (microStep_movedOn hHas hsound hheld h)
  · cases h.symm.trans hstep
    exact .inr ⟨⟨hblk, S, hS, rfl⟩, fun hyes => by rw [hno] at hyes; cases hyes⟩
  · obtain ⟨hblk', S', hS', hd⟩ := complete_keeps_deadline (s := { s with script := rest }) hS (hstep.symm.trans h)
    exact .inr ⟨⟨hblk'.trans hblk, S', hS', hd _⟩, fun hyes => by rw [hno] at hyes; cases hyes⟩

theorem machineInv_fed {s : State} (hs : MachineInv s) (more : List Line) : MachineInv (fed more s) :=
  machineInv_withScript hs _

section

variable {r : Nat → State} {feed : Nat → List Line} (hrun : IsRun r feed)

include hrun

/-- Every state of a run from a sound state is sound. -/
theorem isRun_machineInv (h0 : MachineInv (r 0)) (n : Nat) : MachineInv (r n) := by
  induction n with
  | zero => exact h0
  | succ n ih => exact stepKeepsMachineInv _ _ (machineInv_fed ih _) (hrun n)

/-- The clock of a run does not go back. -/
theorem isRun_clock_mono : Monotone fun n => (r n).CLK :=
  monotone_nat_of_le_succ fun n => (stepKeepsIdentity _ _ (hrun n)).1

/-- A blocking operation that does not move on stands where it is. -/
theorem isRun_standsUntil (h0 : MachineInv (r 0)) {B : Blocking} {d n : Nat} (hB : StandsUntil B d (r n))
    (hno : ∀ m, n ≤ m → ¬ MovedOn (phaseRank B.phase) (r m)) {m : Nat} (hm : n ≤ m) : StandsUntil B d (r m) := by
  induction m, hm using Nat.le_induction with
  | base => exact hB
  | succ m hm ih =>
    obtain hmoved | ⟨hstands, -⟩ := step_standsUntil (machineInv_fed (isRun_machineInv hrun h0 m) _) ih (hrun m)
    · exact absurd hmoved (hno _ (hm.trans (Nat.le_succ m)))
    · exact hstands

/-- It does move on: past its deadline the next micro-step is not held. -/
theorem isRun_movedOn (h0 : MachineInv (r 0)) (hclock : ClockAdvances r) (hloop : LoopKeepsStepping r feed) {B : Blocking}
    {n : Nat} (hB : (r n).blk = some B) : ∃ m, n ≤ m ∧ MovedOn (phaseRank B.phase) (r m) := by
  by_contra! hno
  obtain ⟨S, hS, -⟩ := (isRun_machineInv hrun h0 n).blocking B hB
  have stands : ∀ m, n ≤ m → StandsUntil B (deadline S B.phase) (r m) :=
    fun m => isRun_standsUntil hrun h0 ⟨hB, S, hS, rfl⟩ hno
  obtain ⟨late, hlate⟩ := hclock (deadline S B.phase)
  obtain ⟨m, hm, hidle | hmicro⟩ := hloop (max n late)
  · exact hno m (by omega) (.inl hidle)
  · obtain hmoved | ⟨-, hbefore⟩ :=
      step_standsUntil (machineInv_fed (isRun_machineInv hrun h0 m) _) (stands m (by omega)) (hrun m)
    · exact hno (m + 1) (by omega) hmoved
    · have hclk : (r late).CLK ≤ (r m).CLK := isRun_clock_mono hrun (by omega)
      exact absurd (hbefore hmicro) (Nat.not_lt.mpr (hlate.trans hclk))

/-- From a phase of any rank the end is reached. -/
theorem isRun_returns (h0 : MachineInv (r 0)) (hclock : ClockAdvances r) (hloop : LoopKeepsStepping r feed) {R n : Nat}
    (hR : MovedOn R (r n)) : ∃ m, n ≤ m ∧ (r m).blk = none := by
  induction R generalizing n with
  | zero =>
    obtain hend | ⟨B, -, hlt⟩ := hR
    · exact ⟨n, le_rfl, hend⟩
    · exact absurd hlt (Nat.not_lt_zero _)
  | succ R ih =>
    obtain hend | ⟨B, hB, hlt⟩ := hR
    · exact ⟨n, le_rfl, hend⟩
    · obtain ⟨m, hm, hmoved⟩ := isRun_movedOn hrun h0 hclock hloop hB
      obtain ⟨m', hm', hend⟩ := ih (hmoved.imp_right fun ⟨B', hB', hlt'⟩ => ⟨B', hB', by omega⟩)
      exact ⟨m', hm.trans hm', hend⟩

end

/-- Settles O60: every micro-step past the deadline of its phase lowers the rank, and the run takes one again and again. -/
theorem blockingReturns : Obligations.BlockingReturns := by
  intro r feed hrun h0 hclock hloop n
  cases hB : (r n).blk with
  | none => exact ⟨n, le_rfl, hB⟩
  | some B => exact isRun_returns hrun h0 hclock hloop (.inr ⟨B, hB, Nat.lt_succ_self _⟩)

end Sys2Proof.Proofs
end

section
/-! PROOFS. How INIT and READ_BLOCKING begin, and IS_INIT (42_blocking_ops R210, R211, R224 to R226). -/

namespace Sys2Proof.Proofs

open Sys2Proof.Machine Sys2Proof.Laws Sys2Proof.Safety

/-- The command of a blocking operation on a free bus, in the statements' words. -/
theorem busWrite_free {B : Blocking} {s : State} {S : Sensor} {T : Transport} (h : Has s B.sensor S T)
    (hfree : T.inflight = none) (ph : Phase) (cmd : Byte) :
    issueAndWait B ph (busWrite S cmd s) =
      .next { withBus S.bus (justIssued (.write S.profile.addr [cmd] true) s)
          (withSensor B.sensor { S with tOp := some s.CLK } s) with
        blk := some { B with phase := ph }, draws := s.draws + 1 } :=
  issueAndWait_free h hfree ph _

/-- Its read. -/
theorem busRead_free {B : Blocking} {s : State} {S : Sensor} {T : Transport} (h : Has s B.sensor S T)
    (hfree : T.inflight = none) (ph : Phase) (n : Nat) :
    issueAndWait B ph (busRead B.sensor S n s) =
      .next { withBus S.bus (justIssued (.read S.profile.addr B.sensor n true) s)
          (withSensor B.sensor { S with tOp := some s.CLK } s) with
        blk := some { B with phase := ph }, draws := s.draws + 1 } :=
  issueAndWait_free h hfree ph _

/-- INIT after an INIT that returned true. -/
theorem execInit_again {k : Nat} {s : State} {S : Sensor} (hS : s.sensors[k]? = some S) (hok : S.initOk = true) :
    execInit k s = .refused .alreadyInitialised := by
  rw [execInit, onSensor_of _ hS rfl, if_pos hok]

/-- INIT before one begins with its first transaction. -/
theorem execInit_of {k : Nat} {s : State} {S : Sensor} (hS : s.sensors[k]? = some S) (hok : S.initOk = false) :
    execInit k s = initFirst k S (setRet .none s) := by
  rw [execInit, onSensor_of _ hS rfl, hok, if_neg Bool.false_ne_true]

/-- Settles O43: refused, or the first transaction of the profile is issued. -/
theorem initBegins : Obligations.InitBegins := by
  intro k s S T h
  refine ⟨execInit_again h.1, fun hok hfree => ⟨fun hp => ?_, fun hp => ?_⟩⟩
  · have hbegun := busWrite_free (B := ⟨k, .resetWait, 0⟩) (s := setRet .none s) h hfree .resetWait 0x1E
    rw [hp] at hbegun
    refine (execInit_of h.1 hok).trans ?_
    rw [initFirst, hp]
    exact hbegun
  · have hbegun := busWrite_free (B := ⟨k, .cmdWait 0, 0⟩) (s := setRet .none s) h hfree (.cmdWait 0) 0x00
    rw [hp] at hbegun
    refine (execInit_of h.1 hok).trans ?_
    rw [initFirst, hp]
    exact hbegun

/-- Settles O49: the measurement request is issued. -/
theorem readBlockingBegins : Obligations.ReadBlockingBegins := by
  intro k s S T h hp hfree
  have hbegun := busWrite_free (B := ⟨k, .measureWait, 0⟩) (s := setRet .none s) h hfree .measureWait S.profile.cmdConvert
  refine (onSensor_of _ h.1 (by rw [hp]; rfl)).trans (hbegun.trans ?_)
  rw [hp]
  rfl

/-- IS_INIT of decoded fields. -/
theorem execIsInit_of {k : Nat} {s : State} {S : Sensor} {f : PresFields} (hS : s.sensors[k]? = some S)
    (hp : S.profile = .PRES) (hf : S.cal.fields = some f) :
    execIsInit k s = .next (setRet (.bool (connected f)) s) := by
  rw [execIsInit, onSensor_of _ hS (by rw [hp]; rfl), hf]

/-- IS_INIT before any INIT. -/
theorem execIsInit_undecoded {k : Nat} {s : State} {S : Sensor} (hS : s.sensors[k]? = some S) (hp : S.profile = .PRES)
    (hf : S.cal.fields = none) : execIsInit k s = .next (nextDraw (setRet (.bool (Config.freeBool s.draws)) s)) := by
  rw [execIsInit, onSensor_of _ hS (by rw [hp]; rfl), hf]

/-- A device is connected exactly if its equipment code is not 63. -/
theorem connected_eq_true_iff {f : PresFields} : connected f = true ↔ f.equipment ≠ 63 := decide_eq_true_iff

/-- Settles O48: the fields are decoded or not. -/
theorem isInitResult : Obligations.IsInitResult := by
  intro k s S hS hp
  refine ⟨fun f hf hcode => ?_, fun f hf hcode => ?_, fun hf => ⟨_, execIsInit_undecoded hS hp hf⟩⟩
  · refine (execIsInit_of hS hp hf).trans ?_
    rw [connected_eq_true_iff.mpr hcode]
    rfl
  · have hno : connected f = false := Bool.eq_false_iff.mpr fun h => connected_eq_true_iff.mp h hcode
    refine (execIsInit_of hS hp hf).trans ?_
    rw [hno]
    rfl

end Sys2Proof.Proofs
end

section
/-! PROOFS. INIT, micro-step by micro-step (42_blocking_ops R213 to R223). -/

namespace Sys2Proof.Proofs

open Sys2Proof.Machine Sys2Proof.Laws Sys2Proof.Safety

/-- Settles O44: the end of a wait, and the two issues of a word. -/
theorem initMicroSteps : Obligations.InitMicroSteps := by
  intro B s S T h
  refine ⟨fun w next hph => ?_, fun w hph hfree => ?_, fun w hph hfree => ?_⟩
  · have hend := microStep_waitEnd h hph
    refine ⟨fun hq => microStep_held h ?_, fun hq => ?_, fun hq => ?_, fun hq => ?_⟩
    · obtain ⟨hph, -⟩ | ⟨hph, -⟩ := hph <;> rwa [hph]
    · rw [hend (by rw [hq]; nofun), hq]; rfl
    · rw [hend (by rw [hq]; nofun), hq]; rfl
    · rw [hend (by rw [hq]; nofun), hq]; rfl
  · rw [microStep_cmdIssue h hph]
    refine ⟨fun hp hw => ⟨_, promCommand_toNat hw, ?_⟩, fun hp cmd hcmd => ?_⟩
    · rw [busWrite_free h hfree, hp]; rfl
    · have hword : wordCommand S.profile w = cmd := by
        rw [hp, wordCommand, Config.memAddrs, List.getD_eq_getElem?_getD, hcmd, Option.getD_some]
      rw [busWrite_free h hfree, hword]
  · rw [microStep_dataIssue h hph, busRead_free h hfree]
    exact ⟨fun hp => by rw [hp]; rfl, fun hp => by rw [hp]; rfl⟩

/-- A word of which both cells were received. -/
theorem frameWord_of_read {m : Memory} {a : Nat} {hi lo : Byte} (draw : Nat) (hhi : Memory.read m a = some hi)
    (hlo : Memory.read m (a + 1) = some lo) : frameWord draw m a = .word (hi ++ lo) := by
  rw [frameWord, cell_of_read draw hhi, cell_of_read draw hlo, hhi, hlo]
  rfl

/-- A word of which a cell was not received (20_memory R74). -/
theorem frameWord_of_missing {m : Memory} {a : Nat} (draw : Nat)
    (h : Memory.read m a = none ∨ Memory.read m (a + 1) = none) : ∃ u, frameWord draw m a = .drawn u := by
  refine ⟨_, if_neg ?_⟩
  obtain h | h := h <;> simp [h]

/-- A read that did not end well yields a drawn word (42_blocking_ops R216, R219). -/
theorem wordRead_of_ne_done {r : PollResult} (draw : Nat) (S : Sensor) (h : r ≠ .Done) :
    ∃ u, wordRead r draw S = .drawn u := by
  cases r with
  | Done => exact absurd rfl h
  | Failed | TimedOut | Pending => exact ⟨_, rfl⟩

/-- What INIT stores of a read that ended with `r`, by the cells of its buffer. -/
theorem wordRead_cases (draw : Nat) (S : Sensor) (r : PollResult) :
    (r ≠ .Done → ∃ u, wordRead r draw S = .drawn u) ∧
    (r = .Done →
      (S.profile = .TEMP ∧ (Memory.read S.buf 0 = none ∨ Memory.read S.buf 1 = none)) ∨
        (S.profile = .PRES ∧ (Memory.read S.buf 1 = none ∨ Memory.read S.buf 2 = none)) →
      ∃ u, wordRead r draw S = .drawn u) ∧
    ∀ hi lo : Byte, r = .Done →
      (S.profile = .TEMP → Memory.read S.buf 0 = some hi → Memory.read S.buf 1 = some lo →
        wordRead r draw S = .word (hi ++ lo)) ∧
      (S.profile = .PRES → Memory.read S.buf 1 = some hi → Memory.read S.buf 2 = some lo →
        wordRead r draw S = .word (hi ++ lo)) := by
  refine ⟨wordRead_of_ne_done draw S, ?_, ?_⟩
  · rintro rfl (⟨hp, hcells⟩ | ⟨hp, hcells⟩)
    · rw [wordRead, hp]; exact frameWord_of_missing draw hcells
    · rw [wordRead, hp]; exact frameWord_of_missing draw hcells
  · rintro hi lo rfl
    refine ⟨fun hp hhi hlo => ?_, fun hp hhi hlo => ?_⟩
    · rw [wordRead, hp]; exact frameWord_of_read draw hhi hlo
    · rw [wordRead, hp]; exact frameWord_of_read draw hhi hlo

/-- The end of a word that is not the last, in the statements' words. -/
theorem wordEnd_eq {B : Blocking} {s : State} {S : Sensor} (hS : s.sensors[B.sensor]? = some S) (T : Transport) {w : Nat}
    (r : PollResult) (hw : w + 1 < S.profile.nCal) :
    wordEnd B S T w r s = { withSensor B.sensor { S with cal := Cal.put S.profile w (wordRead r s.draws S) S.cal } s with
      diag := s.diag ++ waitEvents r T,
      blk := some { B with phase := .cmdIssue (w + 1), total := B.total + bytesCounted r T },
      draws := s.draws + 1 } := by
  rw [wordEnd_of_lt hw, updSensor_withSensor _ hS, waitDiag_eq]
  rfl

/-- Settles O45: `wordEnd_eq` with the word of `wordRead_cases`. -/
theorem initWordStored : Obligations.InitWordStored := by
  intro B s S T w h hph hw
  refine ⟨fun hq => microStep_held h (by rwa [hph]), fun hq => ⟨wordRead (pollOf s S T) s.draws S, ?_,
    wordRead_cases _ _ _⟩⟩
  have hend := (microStep_dataWait h hph hq).trans (congrArg _ (wordEnd_eq h.1 T _ hw))
  refine ⟨fun hq => ?_, fun hq => ?_, fun hq => ?_⟩
  · rw [hend, hq]; rfl
  · rw [hend, hq]; rfl
  · rw [hend, hq]; rfl

theorem withSensor_lookup {k : Nat} {s : State} {S : Sensor} (hS : s.sensors[k]? = some S) (S' : Sensor) :
    (withSensor k S' s).sensors[k]? = some S' :=
  List.getElem?_set_self (List.getElem?_eq_some_iff.mp hS).1

theorem withSensor_withSensor (k : Nat) (S S' : Sensor) (s : State) :
    withSensor k S' (withSensor k S s) = withSensor k S' s := by
  simp [withSensor]

/-- The end of INIT, in the statements' words. -/
theorem initEnd_eq {B : Blocking} {s : State} {S : Sensor} (hS : s.sensors[B.sensor]? = some S) :
    initEnd B s =
      { withSensor B.sensor { decodeStoreFields s.draws S with initOk := decide (B.total ≠ 0) } s with
        diag := s.diag ++ [.initReport (reportContent (decodeStoreFields s.draws S))], blk := none,
        ret := .bool (decide (B.total ≠ 0)), draws := s.draws + 1 } := by
  have hdecoded := withSensor_lookup hS (decodeStoreFields s.draws S)
  rw [initEnd, updSensor_withSensor _ hS, hdecoded, updSensor_withSensor _ (s := emitDiag _ _) hdecoded]
  simp only [withSensor, emitDiag, List.set_set]
  rfl

/-- What a wait counts (42_blocking_ops R216). -/
theorem bytesCounted_eq (r : PollResult) (T : Transport) : bytesCounted r T = if r = .TimedOut then 0 else T.nbytes := by
  cases r <;> rfl

/-- The end of the last word, in the statements' words. -/
theorem wordEnd_last_eq {B : Blocking} {s : State} {S : Sensor} (hS : s.sensors[B.sensor]? = some S) (T : Transport)
    {w : Nat} (r : PollResult) {ok : Bool} (hw : w + 1 = S.profile.nCal)
    (hok : ok = true ↔ B.total + bytesCounted r T ≠ 0) :
    let decoded := decodeStoreFields (s.draws + 1) (storeWord S.profile w (wordRead r s.draws S) S)
    wordEnd B S T w r s = { withSensor B.sensor { decoded with initOk := ok } s with
      diag := s.diag ++ waitEvents r T ++ [.initReport (reportContent decoded)], blk := none, ret := .bool ok,
      draws := s.draws + 2 } := by
  obtain rfl : ok = decide (B.total + bytesCounted r T ≠ 0) := Bool.eq_iff_iff.mpr (hok.trans decide_eq_true_iff.symm)
  have hstored : ∀ S', (nextDraw (waitDiag r T (withSensor B.sensor S' s))).sensors[B.sensor]? = some S' := fun S' => by
    rw [nextDraw_sensors, waitDiag_sensors, withSensor_lookup hS]
  intro decoded
  rw [wordEnd_of_last hw.not_lt, updSensor_withSensor _ hS]
  refine (initEnd_eq (B := { B with total := B.total + bytesCounted r T }) (hstored _)).trans ?_
  simp only [waitDiag_eq, nextDraw, withSensor, List.set_set]
  rfl

/-- Settles O46: `wordEnd_last_eq` with the word of `wordRead_cases`, for each profile. -/
theorem initEnds : Obligations.InitEnds := by
  intro B s S T w ok h hph hw hq hok
  have hend := (microStep_dataWait h hph hq).trans
    (congrArg _ (wordEnd_last_eq h.1 T _ hw (by rw [bytesCounted_eq]; exact hok)))
  refine ⟨wordRead (pollOf s S T) s.draws S, waitEvents (pollOf s S T) T, ⟨fun hp => ?_, fun hp => ?_⟩, rfl,
    wordRead_cases _ _ _⟩
  · rw [hend]
    simp only [decodeStoreFields, storeWord, reportContent, Cal.put, hp]
  · rw [hend]
    simp only [decodeStoreFields, storeWord, reportContent, Cal.put, hp]
    rfl

end Sys2Proof.Proofs
end

section
/-! PROOFS. The decoded fields as numbers (42_blocking_ops R220, 10_state R31, R34). -/

namespace Sys2Proof.Proofs

open Sys2Proof.Machine Sys2Proof.Laws Sys2Proof.Safety

/-- The numbers the three patterns of `P_mode` stand for (10_state R34; log 18). -/
theorem f32Value_pMode :
    f32Value Config.pModeVented = some (8499757 / 2 ^ 23) ∧ f32Value Config.pModeSealed = some 1 ∧
      f32Value Config.pModeAbsolute = some 0 := by
  refine ⟨?_, ?_, ?_⟩
  · simp [f32Value, Config.pModeVented]
  · simp [f32Value, Config.pModeSealed]; norm_num
  · simp [f32Value, Config.pModeAbsolute]

/-- Settles O47: the slices of the codec, and the three patterns of `P_mode`. -/
theorem decodedFields : Obligations.DecodedFields := by
  intro draw w00 w01 w12 w13 w14 w15 w16
  obtain ⟨hvented, hsealed, habsolute⟩ := f32Value_pMode
  refine ⟨fieldEquip_toNat w00, fieldPlace_toNat w00, rfl, decode32_toNat w00 w01, fieldMode_toNat w12, fieldYear_eq w12,
    fieldMonth_eq w12, fieldDay_eq w12, decode32_toNat w13 w14, decode32_toNat w15 w16, fun h => ?_, fun h => ?_,
    fun h0 h1 => ?_⟩
  · have hmode : pModeOf (fieldMode w12) = Config.pModeVented := if_pos h
    exact ⟨_, (congrArg f32Value hmode).trans hvented, by norm_num [abs_le]⟩
  · have hmode : pModeOf (fieldMode w12) = Config.pModeSealed :=
      (if_neg (by rw [show fieldMode w12 = 1 from h]; decide)).trans (if_pos h)
    exact (congrArg f32Value hmode).trans hsealed
  · have hmode : pModeOf (fieldMode w12) = Config.pModeAbsolute := (if_neg h0).trans (if_neg h1)
    exact (congrArg f32Value hmode).trans habsolute

end Sys2Proof.Proofs
end

section
/-! PROOFS. READ_BLOCKING, micro-step by micro-step (42_blocking_ops R213, R214, R226 to R229). -/

namespace Sys2Proof.Proofs

open Sys2Proof.Machine Sys2Proof.Laws Sys2Proof.Safety

/-- The pressure of a store whose five words are the device's, of a connected device (43_compensation R252). -/
theorem pressureOf_of_words {c : Cal} {f : PresFields} {v12 v13 v14 v15 v16 : U16} (draw : Nat) (P : U16)
    (hf : c.fields = some f) (hcode : f.equipment ≠ 63) (h12 : c.W.w12 = .word v12) (h13 : c.W.w13 = .word v13)
    (h14 : c.W.w14 = .word v14) (h15 : c.W.w15 = .word v15) (h16 : c.W.w16 = .word v16) :
    pressureOf draw c P = Config.compP f.P_min f.P_max f.P_mode ((P.toNat : Int) - 16384) := by
  have htrusted : presTrusted c.W = true := by simp [presTrusted, CalWord.isWord, h12, h13, h14, h15, h16]
  simp only [pressureOf, hf, htrusted, connected_eq_true_iff.mpr hcode]
  rfl

/-- A word of which both cells were received, as a decode step reads it. -/
theorem decode16_cell_of_read {m : Memory} {a b : Nat} {hi lo : Byte} (draw : Nat) (hhi : Memory.read m a = some hi)
    (hlo : Memory.read m b = some lo) : decode16 (Memory.cell draw m a) (Memory.cell draw m b) = hi ++ lo := by
  rw [cell_of_read draw hhi, cell_of_read draw hlo, decode16]

/-- The read of a PRES sensor's measurement, at the first sample 9 ms after its stamp. -/
theorem microStep_measureDelay_free {B : Blocking} {s : State} {S : Sensor} {T : Transport} {t0 : Nat}
    (h : Has s B.sensor S T) (hp : S.profile = .PRES) (hph : B.phase = .measureDelay) (ht : S.tConv = some t0)
    (hdue : t0 + 9 ≤ s.CLK) (hfree : T.inflight = none) :
    microStep B s =
      .next { withBus S.bus (justIssued (.read 0x40 B.sensor 5 true) s) (withSensor B.sensor { S with tOp := some s.CLK } s) with
        blk := some { B with phase := .measureData }, draws := s.draws + 1 } := by
  have hel : S.profile.tConvMin ≤ elapsed s S.tConv := by
    rw [hp, ht, elapsed_some, Profile.tConvMin]
    omega
  rw [microStep_measureDelay h hph hel, busRead_free h hfree, hp]
  rfl

/-- Settles O50: the phases in turn; what a clean finish stores is `measureStore`. -/
theorem readBlockingPhases : Obligations.ReadBlockingPhases := by
  intro B s S T h hp
  refine ⟨fun hph hq => microStep_held h ?_, microStep_measureWait_done h, fun t0 hph ht => ⟨fun hearly => ?_, ?_⟩,
    fun hph hq => ?_⟩
  · obtain hph | hph := hph <;> rwa [hph]
  · refine microStep_held h ?_
    rw [hph, Held, hp, ht, elapsed_some, Profile.tConvMin]
    omega
  · exact microStep_measureDelay_free h hp hph ht
  · exact ⟨_, _, _, _, microStep_measureData_done h hph hq, fun b => cell_of_read _, fun hi lo => decode16_cell_of_read _,
      fun hi lo => decode16_cell_of_read _, fun f v12 v13 v14 v15 v16 => pressureOf_of_words _ _⟩

/-- Settles O51, by `microStep_measure_failed`. -/
theorem readBlockingFails : Obligations.ReadBlockingFails := by
  intro B s S T h hph
  refine ⟨fun hq => ?_, fun hq => ?_⟩
  · rw [microStep_measure_failed h hph (.inl hq), hq]; rfl
  · rw [microStep_measure_failed h hph (.inr hq), hq]; rfl

end Sys2Proof.Proofs
end

section
/-! SUPPORT. A blocking operation along its script: one lemma per line (logs 8, 9). -/

namespace Sys2Proof.Proofs

open Sys2Proof.Machine Sys2Proof.Laws Sys2Proof.Safety

/-- `u` is reached from `s` in `n` steps; sensor `k` is `S` on bus `T`, the blocking operation `B`, if any, runs, the lines
`lines` are left, the diagnostics `events` have been added, and no other sensor changed. -/
structure BlockAt (k : Nat) (s : State) (n : Nat) (S : Sensor) (T : Transport) (B : Option Blocking)
    (events : List DiagEvent) (lines : List Line) (u : State) : Prop where
  run : reaches s n u
  has : Has u k S T
  unmarked : u.FAULT = false
  blocking : u.blk = B
  script : u.script = lines
  diag : u.diag = s.diag ++ events
  others : ∀ j, j ≠ k → u.sensors[j]? = s.sensors[j]?

section

variable {k n : Nat} {s u v : State} {S S' : Sensor} {T T' : Transport} {events events' : List DiagEvent} {l : Line}
  {rest lines lines' : List Line}

/-- One more step that writes the sensor and its transport. -/
theorem BlockAt.extend {B B' : Option Blocking} (h : BlockAt k s n S T B events lines u) (hstep : step u = .next v)
    (hS : v.sensors = u.sensors.set k S') (hT : v.buses[S.bus]? = some T') (hbus : S'.bus = S.bus) (hmark : v.FAULT = u.FAULT)
    (hblk : v.blk = B') (hscript : v.script = lines') (hdiag : v.diag = s.diag ++ events') :
    BlockAt k s (n + 1) S' T' B' events' lines' v where
  run := reaches_snoc h.run hstep
  has := ⟨by rw [hS, List.getElem?_set_self (List.getElem?_eq_some_iff.mp h.has.1).1], by rw [hbus, hT]⟩
  unmarked := hmark.trans h.unmarked
  blocking := hblk
  script := hscript
  diag := hdiag
  others := fun j hj => by rw [hS, List.getElem?_set_ne hj.symm, h.others j hj]

/-- The bus of a sensor after an issue on it. -/
theorem withBus_same {b : Nat} (T : Transport) (hT : s.buses[b]? = some T') : (withBus b T s).buses[b]? = some T :=
  setBus_same b T T' s hT

/-- The host's line that begins a blocking operation. -/
theorem BlockAt.begin {j : Nat} {bytes : List Byte} {i : Instr} {B : Blocking}
    (h : BlockAt k s n S T none events (.host (.bytes j bytes) :: rest) u) (hd : decode (.bytes j bytes) = .ok (i, []))
    (hexec : exec i { u with script := rest } = .next v) (hS : v.sensors = u.sensors.set k S')
    (hT : v.buses[S.bus]? = some T') (hbus : S'.bus = S.bus) (hmark : v.FAULT = u.FAULT) (hblk : v.blk = some B)
    (hscript : v.script = rest) (hdiag : v.diag = u.diag) : BlockAt k s (n + 1) S' T' (some B) events rest v :=
  h.extend ((step_host h.unmarked h.blocking h.script hd).trans hexec) hS hT hbus hmark hblk hscript (hdiag.trans h.diag)

/-- The line of a transport that completes a write of one byte. -/
theorem BlockAt.okWrite {B : Blocking} {m : Nat} {addr : BusAddr} {byte : Byte} {stop : Bool}
    (h : BlockAt k s n S T (some B) events (.bus S.bus (.okWrite m) :: rest) u)
    (hi : T.inflight = some (.write addr [byte] stop)) (hm : m ≤ 1) :
    ∃ v, BlockAt k s (n + 1) S (completed false T.errcode m) (some B) events rest v := by
  obtain ⟨hS, hT⟩ := h.has
  exact ⟨_, h.extend ((step_heldLine h.unmarked h.blocking h.script).trans
      (complete_okWrite (s := { u with script := rest }) hT hi hm))
    (sensors_set_same hS) (setBus_same S.bus _ T { u with script := rest } hT) rfl rfl h.blocking rfl h.diag⟩

/-- The line of a transport that completes a read in full. -/
theorem BlockAt.okRead {B : Blocking} {addr : BusAddr} {data : List Byte} {stop : Bool}
    (h : BlockAt k s n S T (some B) events (.bus S.bus (.okRead data) :: rest) u)
    (hi : T.inflight = some (.read addr k data.length stop)) (hd : data.length ≤ Config.bufSize) :
    ∃ v, BlockAt k s (n + 1) { S with buf := receive data.length data S.buf } (completed false T.errcode data.length) (some B)
      events rest v := by
  obtain ⟨hS, hT⟩ := h.has
  exact ⟨_, h.extend ((step_heldLine h.unmarked h.blocking h.script).trans
      (complete_okRead (s := { u with script := rest }) hT hi hS le_rfl hd))
    rfl (setBus_same S.bus _ T (withSensor k _ { u with script := rest }) hT) rfl rfl h.blocking rfl h.diag⟩

/-- The clock's line. -/
theorem BlockAt.clockLine {B : Blocking} {d : Nat} (h : BlockAt k s n S T (some B) events (.clock d :: rest) u) :
    ∃ v, BlockAt k s (n + 1) S T (some B) events rest v ∧ v.CLK = u.CLK + d := by
  obtain ⟨hS, hT⟩ := h.has
  exact ⟨_, h.extend (v := advanceClock d { u with script := rest }) (step_heldLine h.unmarked h.blocking h.script)
    (sensors_set_same hS) hT rfl rfl h.blocking rfl h.diag, rfl⟩

/-- The block's line once nothing blocks. -/
theorem BlockAt.idleLine (h : BlockAt k s n S T none events (.block :: rest) u) :
    BlockAt k s (n + 1) S T none events rest { u with script := rest } :=
  h.extend (step_takeLine h.unmarked h.blocking h.script) (sensors_set_same h.has.1) h.has.2 rfl rfl h.blocking rfl h.diag

/-- The block's line with a micro-step. -/
theorem BlockAt.micro {B : Blocking} {B' : Option Blocking} (h : BlockAt k s n S T (some B) events (.block :: rest) u)
    (hmicro : microStep B { u with script := rest } = .next v) (hS : v.sensors = u.sensors.set k S')
    (hT : v.buses[S.bus]? = some T') (hbus : S'.bus = S.bus) (hmark : v.FAULT = u.FAULT) (hblk : v.blk = B')
    (hscript : v.script = rest) (hdiag : v.diag = s.diag ++ events') :
    BlockAt k s (n + 1) S' T' B' events' rest v :=
  h.extend ((step_heldLine h.unmarked h.blocking h.script).trans hmicro) hS hT hbus hmark hblk hscript hdiag

/-- The block's line with a micro-step that issues a transaction on the free bus. -/
theorem BlockAt.microIssue {B : Blocking} {ph : Phase} {tr : Transaction}
    (h : BlockAt k s n S T (some B) events (.block :: rest) u) (hB : B.sensor = k) (hfree : T.inflight = none)
    (hissue : microStep B { u with script := rest } = issueAndWait B ph (issue S.bus tr { u with script := rest })) :
    ∃ v T' t, T'.inflight = some tr ∧
      BlockAt k s (n + 1) { S with tOp := t } T' (some { B with phase := ph }) events rest v := by
  subst hB
  have hHas : Has { u with script := rest } B.sensor S T := h.has
  exact ⟨_, _, _, rfl, h.micro (hissue.trans (issueAndWait_free hHas hfree ph tr)) rfl
    (withBus_same (s := withSensor B.sensor _ { u with script := rest }) _ h.has.2) rfl rfl rfl rfl h.diag⟩

end

/-- A write of later cells leaves a cell alone. -/
theorem read_writeFrom_below (m : Memory) {a b : Nat} (data : List Byte) (hb : b < a) :
    Memory.read (Memory.writeFrom m a data) b = Memory.read m b := by
  induction data generalizing m a with
  | nil => rfl
  | cons v data ih => rw [Memory.writeFrom, ih _ (by omega), read_write_cell, if_neg (by omega)]

/-- A cell that a write of several cells covers. -/
theorem read_writeFrom_covered (m : Memory) (a : Nat) {data : List Byte} {i : Nat} {v : Byte} (hv : data[i]? = some v) :
    Memory.read (Memory.writeFrom m a data) (a + i) = some v := by
  induction data generalizing m a i with
  | nil => cases hv
  | cons v' data ih =>
    cases i with
    | zero =>
      cases hv
      exact (read_writeFrom_below _ _ (Nat.lt_add_one a)).trans ((read_write_cell ..).trans (if_pos rfl))
    | succ i =>
      rw [Memory.writeFrom, ← Nat.add_assoc, Nat.add_right_comm]
      exact ih _ _ hv

/-- A cell of a reply that came in full. -/
theorem read_receive_full (m : Memory) {data : List Byte} {i : Nat} {v : Byte} (hv : data[i]? = some v) :
    Memory.read (receive data.length data m) i = some v := by
  have hcell := read_writeFrom_covered m 0 hv
  rw [Nat.zero_add] at hcell
  rwa [receive, Nat.sub_self, Memory.eraseFrom]

end Sys2Proof.Proofs
end

section
/-! PROOFS. READ_BLOCKING from its call to its result (42_blocking_ops R226, 95_test_vectors P5). -/

namespace Sys2Proof.Proofs

open Sys2Proof.Machine Sys2Proof.Laws Sys2Proof.Safety

/-- The raw values of a reply that came in full (30_encoding R117). -/
theorem frameMeas_receive (draw : Nat) (status p1 p0 t1 t0 : Byte) (m : Memory) :
    frameMeas draw (receive 5 [status, p1, p0, t1, t0] m) = ⟨status, p1 ++ p0, t1 ++ t0⟩ := by
  have hcell : ∀ {i : Nat} {v : Byte}, [status, p1, p0, t1, t0][i]? = some v →
      Memory.read (receive 5 [status, p1, p0, t1, t0] m) i = some v := read_receive_full m
  rw [frameMeas, cell_of_read draw (hcell (i := 0) rfl), decode16_cell_of_read draw (hcell (i := 1) rfl) (hcell (i := 2) rfl),
    decode16_cell_of_read draw (hcell (i := 3) rfl) (hcell (i := 4) rfl)]

/-- The reading of a sensor that stores such a reply, where its constants are the device's. -/
theorem measureStore_val (draw : Nat) {status p1 p0 t1 t0 : Byte} {m : Memory} {S : Sensor} {f : PresFields}
    {v12 v13 v14 v15 v16 : U16} (hf : S.cal.fields = some f) (hcode : f.equipment ≠ 63) (h12 : S.cal.W.w12 = .word v12)
    (h13 : S.cal.W.w13 = .word v13) (h14 : S.cal.W.w14 = .word v14) (h15 : S.cal.W.w15 = .word v15)
    (h16 : S.cal.W.w16 = .word v16) :
    (measureStore draw { S with buf := receive 5 [status, p1, p0, t1, t0] m }).val =
      some (.pres (Config.compP f.P_min f.P_max f.P_mode ((256 * p1.toNat + p0.toNat : Nat) - 16384))
        (Config.compPT (((256 * t1.toNat + t0.toNat) / 16 : Nat) - 24))) := by
  rw [measureStore, frameMeas_receive, pressureOf_of_words draw _ hf hcode h12 h13 h14 h15 h16, ← decode16_toNat p1 p0,
    ← decode16_toNat t1 t0]
  rfl

/-- The block's line that sees the measurement request finished. -/
theorem BlockAt.measureWait {k n : Nat} {total : Int} {s u : State} {S : Sensor} {T : Transport} {events : List DiagEvent}
    {rest : List Line} (h : BlockAt k s n S T (some ⟨k, .measureWait, total⟩) events (.block :: rest) u)
    (hdone : T.finished = true ∧ T.error = false) :
    ∃ v, BlockAt k s (n + 1) { S with tConv := some u.CLK } T (some ⟨k, .measureDelay, total⟩) events rest v ∧
      v.CLK = u.CLK := by
  have hmicro := microStep_measureWait_done (B := ⟨k, .measureWait, total⟩) (s := { u with script := rest }) h.has rfl
    (pollOf_eq_done_iff.mpr hdone)
  exact ⟨_, h.micro hmicro rfl h.has.2 rfl rfl rfl rfl h.diag, rfl⟩

/-- The block's line at the end of the delay, on a free bus. -/
theorem BlockAt.measureDelay {k n t0 : Nat} {total : Int} {s u : State} {S : Sensor} {T : Transport}
    {events : List DiagEvent} {rest : List Line}
    (h : BlockAt k s n S T (some ⟨k, .measureDelay, total⟩) events (.block :: rest) u) (hp : S.profile = .PRES)
    (ht : S.tConv = some t0) (hdue : t0 + 9 ≤ u.CLK) (hfree : T.inflight = none) :
    ∃ v T' t, T'.inflight = some (.read S.profile.addr k 5 true) ∧
      BlockAt k s (n + 1) { S with tOp := t } T' (some ⟨k, .measureData, total⟩) events rest v := by
  have hel : S.profile.tConvMin ≤ elapsed { u with script := rest } S.tConv := by
    rw [hp, ht, elapsed_some, Profile.tConvMin]
    exact Nat.le_sub_of_add_le' hdue
  exact h.microIssue rfl hfree (microStep_measureDelay (B := ⟨k, .measureDelay, total⟩) h.has rfl hel)

/-- The block's line that sees the measurement's read finished. -/
theorem BlockAt.measureData {k n : Nat} {total : Int} {s u : State} {S : Sensor} {T : Transport} {events : List DiagEvent}
    {rest : List Line} (h : BlockAt k s n S T (some ⟨k, .measureData, total⟩) events (.block :: rest) u)
    (hdone : T.finished = true ∧ T.error = false) :
    ∃ v draw, v.ret = .tick .Success ∧ BlockAt k s (n + 1) (measureStore draw S) T none events rest v := by
  have hmicro := microStep_measureData_done (B := ⟨k, .measureData, total⟩) (s := { u with script := rest }) h.has rfl
    (pollOf_eq_done_iff.mpr hdone)
  exact ⟨_, _, rfl, h.micro hmicro rfl h.has.2 rfl rfl rfl rfl h.diag⟩

/-- Settles O52: the seven lines. -/
theorem readBlockingSucceeds : Obligations.ReadBlockingSucceeds := by
  intro k d n status p1 p0 t1 t0 s S T rest h hF hB hp hfree hd hn hscript
  have at0 : BlockAt k s 0 S T none [] _ s := ⟨rfl, h, hF, hB, hscript, (List.append_nil _).symm, fun _ _ => rfl⟩
  have at1 := at0.begin rfl (readBlockingBegins k _ S T at0.has hp hfree) rfl
    (withBus_same (s := withSensor k _ _) _ at0.has.2) rfl rfl rfl rfl rfl
  obtain ⟨u2, at2⟩ := at1.okWrite rfl hn
  obtain ⟨u3, at3, hclk3⟩ := at2.measureWait ⟨rfl, rfl⟩
  obtain ⟨u4, at4, hclk4⟩ := at3.clockLine
  obtain ⟨u5, T5, t5, hT5, at5⟩ := at4.measureDelay hp rfl (by omega) rfl
  obtain ⟨u6, at6⟩ := at5.okRead hT5 le_rfl
  obtain ⟨u7, draw, hret, at7⟩ := at6.measureData ⟨rfl, rfl⟩
  exact ⟨u7, _, at7.run, at7.blocking, hret, at7.script, at7.diag.trans (List.append_nil _), at7.others, at7.has.1, rfl, rfl,
    congrArg some (frameMeas_receive draw status p1 p0 t1 t0 S.buf), fun f v12 v13 v14 v15 v16 => measureStore_val draw⟩

end Sys2Proof.Proofs
end

section
/-! PROOFS. INIT of a PRES sensor from its call to its result (42_blocking_ops R210, R219, R220, 95_test_vectors V61). -/

namespace Sys2Proof.Proofs

open Sys2Proof.Machine Sys2Proof.Laws Sys2Proof.Safety

/-- The sensor with the words `W` in its store, and with the timers and the buffer INIT has left it. -/
def withWords (S : Sensor) (W : PresWords) (tOp tConv : Option Nat) (buf : Memory) : Sensor :=
  { S with tOp := tOp, tConv := tConv, buf := buf, cal := { S.cal with W := W } }

/-- After `n` steps from `s`, INIT on sensor `k` waits for the command of word `w`; it has counted `total` bytes, the store
holds `W`, and the lines `lines` are left. -/
def InitWaits (k : Nat) (s : State) (S : Sensor) (n w : Nat) (total : Int) (W : PresWords) (lines : List Line) : Prop :=
  ∃ u T tOp tConv buf cmd,
    BlockAt k s n (withWords S W tOp tConv buf) T (some ⟨k, .cmdWait w, total⟩) [] lines u ∧
      T.inflight = some (.write S.profile.addr [cmd] true)

section

variable {k n w : Nat} {total : Int} {s u : State} {S : Sensor} {T : Transport} {events : List DiagEvent}
  {rest : List Line} {W : PresWords} {reply : Byte × Byte × Byte}

/-- The block's line that sees a word's command finished. -/
theorem BlockAt.cmdWait (h : BlockAt k s n S T (some ⟨k, .cmdWait w, total⟩) events (.block :: rest) u)
    (hdone : T.finished = true ∧ T.error = false) :
    ∃ v t, BlockAt k s (n + 1) { S with tConv := t } T (some ⟨k, .dataIssue w, total⟩) events rest v := by
  have hq : pollOf { u with script := rest } S T = .Done := pollOf_eq_done_iff.mpr hdone
  have hmicro := microStep_waitEnd (B := ⟨k, .cmdWait w, total⟩) (s := { u with script := rest }) h.has (.inr ⟨rfl, rfl⟩)
    (by rw [hq]; nofun)
  rw [hq] at hmicro
  exact ⟨_, _, h.micro hmicro rfl h.has.2 rfl rfl rfl rfl ((List.append_nil _).trans h.diag)⟩

/-- The block's line that issues the read of a word. -/
theorem BlockAt.dataIssue (h : BlockAt k s n S T (some ⟨k, .dataIssue w, total⟩) events (.block :: rest) u)
    (hp : S.profile = .PRES) (hfree : T.inflight = none) : ∃ v T' t, T'.inflight = some (.read S.profile.addr k 3 true) ∧
      BlockAt k s (n + 1) { S with tOp := t } T' (some ⟨k, .dataWait w, total⟩) events rest v := by
  have hissue := microStep_dataIssue (B := ⟨k, .dataIssue w, total⟩) (s := { u with script := rest }) h.has rfl
  rw [show wordLength S.profile = 3 by rw [hp]; rfl] at hissue
  exact h.microIssue rfl hfree hissue

/-- The block's line that issues the command of a word. -/
theorem BlockAt.cmdIssue (h : BlockAt k s n S T (some ⟨k, .cmdIssue w, total⟩) events (.block :: rest) u)
    (hfree : T.inflight = none) : ∃ v T' t, T'.inflight = some (.write S.profile.addr [wordCommand S.profile w] true) ∧
      BlockAt k s (n + 1) { S with tOp := t } T' (some ⟨k, .cmdWait w, total⟩) events rest v :=
  h.microIssue rfl hfree (microStep_cmdIssue (B := ⟨k, .cmdIssue w, total⟩) (s := { u with script := rest }) h.has rfl)

/-- A micro-step that sees the read of a word finished. -/
theorem microStep_dataWait_done {B : Blocking} (h : Has s B.sensor S T) (hph : B.phase = .dataWait w)
    (hdone : T.finished = true ∧ T.error = false) : microStep B s = .next (wordEnd B S T w .Done s) := by
  have hq : pollOf s S T = .Done := pollOf_eq_done_iff.mpr hdone
  rw [microStep_dataWait h hph (by rw [hq]; nofun), hq]

/-- The block's line that sees the read of a word finished, not the last one. -/
theorem BlockAt.wordStored (h : BlockAt k s n S T (some ⟨k, .dataWait w, total⟩) events (.block :: rest) u)
    (hdone : T.finished = true ∧ T.error = false) (hw : w + 1 < S.profile.nCal) :
    ∃ v draw, BlockAt k s (n + 1) (storeWord S.profile w (wordRead .Done draw S) S) T
      (some ⟨k, .cmdIssue (w + 1), total + T.nbytes⟩) events rest v := by
  have hmicro := microStep_dataWait_done (B := ⟨k, .dataWait w, total⟩) (s := { u with script := rest }) h.has rfl hdone
  rw [wordEnd_eq (B := ⟨k, _, _⟩) (s := { u with script := rest }) h.has.1 T _ hw] at hmicro
  exact ⟨_, _, h.micro hmicro rfl h.has.2 rfl rfl rfl rfl ((List.append_nil _).trans h.diag)⟩

/-- Decoding the fields keeps the sensor on its bus. -/
theorem decodeStoreFields_bus (draw : Nat) (S : Sensor) : (decodeStoreFields draw S).bus = S.bus := by
  rw [decodeStoreFields_eq]

/-- The block's line that sees the read of the last word finished, when bytes have been counted. -/
theorem BlockAt.initEnded (h : BlockAt k s n S T (some ⟨k, .dataWait w, total⟩) events (.block :: rest) u)
    (hdone : T.finished = true ∧ T.error = false) (hw : w + 1 = S.profile.nCal) (htotal : total + T.nbytes ≠ 0) :
    ∃ v draw, let decoded := decodeStoreFields (draw + 1) (storeWord S.profile w (wordRead .Done draw S) S)
      v.ret = .bool true ∧ BlockAt k s (n + 1) { decoded with initOk := true } T none
        (events ++ [.initReport (reportContent decoded)]) rest v := by
  have hmicro := microStep_dataWait_done (B := ⟨k, .dataWait w, total⟩) (s := { u with script := rest }) h.has rfl hdone
  rw [wordEnd_last_eq (B := ⟨k, _, _⟩) (s := { u with script := rest }) (ok := true) h.has.1 T _ hw
    ⟨fun _ => htotal, fun _ => rfl⟩] at hmicro
  refine ⟨_, _, rfl, h.micro hmicro rfl h.has.2 (decodeStoreFields_bus _ _) rfl rfl rfl ?_⟩
  simp [waitEvents, h.diag]

/-- A further word in the store. -/
theorem storeWord_withWords (hp : S.profile = .PRES) (w : Nat) (v : CalWord) (W : PresWords) (tOp tConv : Option Nat)
    (buf : Memory) : storeWord (withWords S W tOp tConv buf).profile w v (withWords S W tOp tConv buf) =
      withWords S (W.put w v) tOp tConv buf := by
  rw [show (withWords S W tOp tConv buf).profile = .PRES from hp]
  rfl

theorem decodeStoreFields_of_pres (draw : Nat) (hp : S.profile = .PRES) :
    decodeStoreFields draw S = { S with cal := { S.cal with fields := some (decodeFields draw S.cal.W) } } := by
  rw [decodeStoreFields, hp]

theorem reportContent_decodeStoreFields (draw : Nat) (hp : S.profile = .PRES) :
    reportContent (decodeStoreFields draw S) = some (reportOf (decodeFields draw S.cal.W)) := by
  rw [decodeStoreFields_of_pres draw hp, reportContent, hp]
  rfl

/-- The word of a reply that came in full (30_encoding R116). -/
theorem wordRead_received (draw : Nat) (buf : Memory) (hp : S.profile = .PRES) :
    wordRead .Done draw { S with buf := receive 3 [reply.1, reply.2.1, reply.2.2] buf } = replyWord reply := by
  have hcell : ∀ {i : Nat} {v : Byte}, [reply.1, reply.2.1, reply.2.2][i]? = some v →
      Memory.read (receive 3 [reply.1, reply.2.1, reply.2.2] buf) i = some v := read_receive_full buf
  obtain ⟨-, -, hword⟩ := wordRead_cases draw { S with buf := receive 3 [reply.1, reply.2.1, reply.2.2] buf } .Done
  exact (hword _ _ rfl).2 hp (hcell rfl) (hcell rfl)

/-- The first four lines of a word: its read has finished, and the buffer holds the reply. -/
theorem InitWaits.received (h : InitWaits k s S n w total W (wordLines S.bus reply ++ rest)) (hp : S.profile = .PRES) :
    ∃ u code tOp tConv buf, BlockAt k s (n + 4) (withWords S W tOp tConv buf) (completed false code 3)
      (some ⟨k, .dataWait w, total⟩) [] (.block :: .block :: rest) u ∧
      ∀ draw, let S' := withWords S W tOp tConv buf
        storeWord S'.profile w (wordRead .Done draw S') S' = withWords S (W.put w (replyWord reply)) tOp tConv buf := by
  obtain ⟨u0, T, tOp, tConv, buf, cmd, at0, hT⟩ := h
  obtain ⟨u1, at1⟩ := at0.okWrite hT le_rfl
  obtain ⟨u2, t2, at2⟩ := at1.cmdWait ⟨rfl, rfl⟩
  obtain ⟨u3, T3, t3, hT3, at3⟩ := at2.dataIssue hp rfl
  obtain ⟨u4, at4⟩ := at3.okRead hT3 (Nat.le_add_right 3 2)
  refine ⟨u4, _, t3, t2, receive 3 [reply.1, reply.2.1, reply.2.2] buf, at4, fun draw => ?_⟩
  rw [← storeWord_withWords hp, ← wordRead_received draw buf (S := withWords S W t3 t2 buf) hp]
  rfl

/-- The host's line with INIT, on a free bus. -/
theorem BlockAt.initWaits (h : BlockAt k s n S T none [] (.host (.bytes k [0x06]) :: rest) u) (hp : S.profile = .PRES)
    (hok : S.initOk = false) (hfree : T.inflight = none) : InitWaits k s S (n + 1) 0 0 S.cal.W rest := by
  obtain ⟨-, hbegins⟩ := initBegins k { u with script := rest } S T h.has
  obtain ⟨-, hexec⟩ := hbegins hok hfree
  refine ⟨_, _, some u.CLK, S.tConv, S.buf, 0x00, h.begin rfl (hexec hp) rfl
    (withBus_same (s := withSensor k _ { u with script := rest }) _ h.has.2) rfl rfl rfl rfl rfl, ?_⟩
  rw [hp]
  rfl

/-- The six lines of a word that is not the last. -/
theorem InitWaits.word (h : InitWaits k s S n w total W (wordLines S.bus reply ++ rest)) (hp : S.profile = .PRES)
    (hw : w + 1 < 7) : InitWaits k s S (n + 6) (w + 1) (total + 3) (W.put w (replyWord reply)) rest := by
  obtain ⟨u4, code, tOp, tConv, buf, at4, hstored⟩ := h.received hp
  have hnCal : S.profile.nCal = 7 := by rw [hp]; rfl
  obtain ⟨u5, draw, at5⟩ := at4.wordStored ⟨rfl, rfl⟩ (hw.trans_eq hnCal.symm)
  rw [hstored] at at5
  obtain ⟨u6, T6, t6, hT6, at6⟩ := at5.cmdIssue rfl
  exact ⟨u6, T6, t6, _, _, _, at6, hT6⟩

/-- The six lines of the last word: INIT has ended. -/
theorem InitWaits.last (h : InitWaits k s S n 6 total W (wordLines S.bus reply ++ rest)) (hp : S.profile = .PRES)
    (htotal : total + 3 ≠ 0) :
    ∃ v T S' draw, BlockAt k s (n + 6) S' T none [.initReport (some (reportOf (decodeFields draw S'.cal.W)))] rest v ∧
      v.ret = .bool true ∧ S'.rs = S.rs ∧ S'.val = S.val ∧ S'.initOk = true ∧ S'.cal.W = W.put 6 (replyWord reply) ∧
      S'.cal.fields = some (decodeFields draw S'.cal.W) := by
  obtain ⟨u4, code, tOp, tConv, buf, at4, hstored⟩ := h.received hp
  have hnCal : S.profile.nCal = 7 := by rw [hp]; rfl
  obtain ⟨u5, draw, hret, at5⟩ := at4.initEnded ⟨rfl, rfl⟩ hnCal.symm htotal
  have hp' : (withWords S (W.put 6 (replyWord reply)) tOp tConv buf).profile = .PRES := hp
  rw [hstored, reportContent_decodeStoreFields _ hp', decodeStoreFields_of_pres _ hp'] at at5
  exact ⟨_, _, _, draw + 1, at5.idleLine, hret, rfl, rfl, rfl, rfl, rfl⟩

end

/-- Settles O53: the call, six words, and the last one. -/
theorem initPresSucceeds : Obligations.InitPresSucceeds := by
  intro k r00 r01 r12 r13 r14 r15 r16 s S T rest h hF hB hp hok hfree hscript
  have at0 : BlockAt k s 0 S T none [] (.host (.bytes k [0x06]) :: (wordLines S.bus r00 ++ (wordLines S.bus r01 ++
      (wordLines S.bus r12 ++ (wordLines S.bus r13 ++ (wordLines S.bus r14 ++ (wordLines S.bus r15 ++
        (wordLines S.bus r16 ++ rest)))))))) s :=
    ⟨rfl, h, hF, hB, hscript.trans (by simp), (List.append_nil _).symm, fun _ _ => rfl⟩
  have waits0 := at0.initWaits hp hok hfree
  have waits1 := waits0.word hp (by decide)
  have waits2 := waits1.word hp (by decide)
  have waits3 := waits2.word hp (by decide)
  have waits4 := waits3.word hp (by decide)
  have waits5 := waits4.word hp (by decide)
  have waits6 := waits5.word hp (by decide)
  obtain ⟨t, T', S', draw, hend, hret, hrs, hval, hinit, hW, hfields⟩ := waits6.last hp (by decide)
  exact ⟨t, S', draw, hend.run, hend.blocking, hret, hend.script, hend.others, hend.has.1, hrs, hval, hinit, hW, hfields,
    hend.diag⟩

end Sys2Proof.Proofs
end

section
/-! PROOFS. The Compensation Engine's integer steps, which are exact, and its reference formulas over exact numbers
(43_compensation R249 to R257). -/

namespace Sys2Proof.Proofs

open Sys2Proof.Machine

/-! ## The integer steps (43_compensation R249, R252, R254) -/

/-- `adc` is `D1 / 256`: the quotient fits its 16 bits. -/
theorem adcOf_toNat (d1 : U24) : (adcOf d1).toNat = d1.toNat / 256 := by
  have := d1.isLt
  rw [adcOf, BitVec.toNat_ofNat]
  omega

/-- `adc` is bits 23 to 8 of the count. -/
theorem adcOf_eq_extractLsb' (d1 : U24) : adcOf d1 = d1.extractLsb' 8 16 := by
  rw [adcOf, BitVec.extractLsb', Nat.shiftRight_eq_div_pow]

/-- Equal quotients by 256 have equal `adc`. -/
theorem adcOf_congr {d1 d1' : U24} (h : d1.toNat / 256 = d1'.toNat / 256) : adcOf d1 = adcOf d1' := by
  rw [adcOf, adcOf, h]

/-- The pressure count plus 16384 is the word: the subtraction is signed and loses nothing. -/
theorem pressureCount_add (P : U16) : pressureCount P + 16384 = P.toNat :=
  Int.sub_add_cancel _ _

/-- The pressure count is a 16-bit number less 16384. -/
theorem pressureCount_bounds (P : U16) : -16384 ≤ pressureCount P ∧ pressureCount P ≤ 49151 := by
  have := P.isLt
  rw [pressureCount]
  omega

/-- The temperature count plus 24 is the word shifted right by 4. -/
theorem temperatureCount_add (T_raw : U16) : temperatureCount T_raw + 24 = (T_raw >>> 4).toNat := by
  rw [temperatureCount, BitVec.toNat_ushiftRight, Nat.shiftRight_eq_div_pow]
  omega

/-- The temperature count is a 12-bit number less 24. -/
theorem temperatureCount_bounds (T_raw : U16) : -24 ≤ temperatureCount T_raw ∧ temperatureCount T_raw ≤ 4071 := by
  have := T_raw.isLt
  rw [temperatureCount]
  omega

/-- Equal quotients by 16 have equal temperature counts. -/
theorem temperatureCount_congr {T_raw T_raw' : U16} (h : T_raw.toNat / 16 = T_raw'.toNat / 16) :
    temperatureCount T_raw = temperatureCount T_raw' := by
  rw [temperatureCount, temperatureCount, h]

/-- Settles O58: the arithmetic sees a raw word through its integer step only, and each step is exact. -/
theorem compensationIntegerSteps : Obligations.CompensationIntegerSteps := by
  refine ⟨fun d1 => ⟨adcOf_toNat d1, adcOf_eq_extractLsb' d1⟩, ?_, fun P => ⟨pressureCount_add P, pressureCount_bounds P⟩,
    fun T_raw => ⟨temperatureCount_add T_raw, temperatureCount_bounds T_raw⟩, ?_, fun _ _ => rfl⟩
  · intro c1 c2 c3 c4 c5 d1 d1' h
    rw [compT, compT, adcOf_congr h]
  · intro T_raw T_raw' h
    rw [compPT, compPT, temperatureCount_congr h]

/-! ## The reference formulas (43_compensation R250, R253, R254, R256, R257) -/

/-- The worked example of R250. -/
theorem refT_workedExample : |refT 28446 24926 36016 32791 40781 36635 - 10.5773| < 0.0001 := by
  simp only [refT, BitVec.reduceToNat, abs_lt]
  norm_num

/-- The pressure at 16384, where the count is 0: the midpoint identity of R253. -/
theorem refP_midpoint (pMin pMax pMode : Rat) : refP pMin pMax pMode 16384 = pMin + pMode := by
  have hcount : pressureCount 16384 = 0 := rfl
  rw [refP, hcount]
  ring

/-- The pressure at 49152, where the count is 32768 (R253). -/
theorem refP_upperPoint (pMin pMax pMode : Rat) : refP pMin pMax pMode 49152 = pMax + pMode := by
  have hcount : pressureCount 49152 = 32768 := rfl
  rw [refP, hcount]
  push_cast
  ring

/-- The pressure is affine in the word, with slope `(pMax - pMin) / 32768`. -/
theorem refP_sub (pMin pMax pMode : Rat) (P P' : U16) :
    refP pMin pMax pMode P - refP pMin pMax pMode P' = ((P.toNat : Rat) - P'.toNat) * ((pMax - pMin) / 32768) := by
  rw [refP, refP, pressureCount, pressureCount]
  push_cast
  ring

/-- The range of the temperature, from the range of its count. -/
theorem refPT_bounds (T_raw : U16) : -51.2 ≤ refPT T_raw ∧ refPT T_raw ≤ 153.55 := by
  obtain ⟨hlo, hhi⟩ := temperatureCount_bounds T_raw
  have hlo' : (-24 : Rat) ≤ temperatureCount T_raw := by exact_mod_cast hlo
  have hhi' : (temperatureCount T_raw : Rat) ≤ 4071 := by exact_mod_cast hhi
  rw [refPT]
  constructor <;> linarith

/-- The lowest temperature, where the count is -24. -/
theorem refPT_of_lt {T_raw : U16} (h : T_raw.toNat < 16) : refPT T_raw = -51.2 := by
  have hcount : temperatureCount T_raw = -24 := by
    rw [temperatureCount, Nat.div_eq_of_lt h]
    rfl
  rw [refPT, hcount]
  norm_num

/-- The depth at the pressure the formula subtracts; at density 0 it is Lean's quotient (log 36). -/
theorem refDepth_surface (density : Rat) : refDepth 101325 density = 0 := by
  rw [refDepth, sub_self, zero_div]

/-- The altitude at the reference pressure: the base of the power is 1. -/
theorem altitudeReference_seaLevel : AltitudeReference 1013.25 0 := by
  have hbase : (1013.25 / 1013.25 : ℝ) = 1 := div_self (by norm_num)
  rw [AltitudeReference, hbase, Real.one_rpow, sub_self, zero_mul, zero_mul]

/-- Settles O59: the worked example, and the identities one by one. -/
theorem referenceFormulas : Obligations.ReferenceFormulas :=
  ⟨refT_workedExample, fun pMin pMax pMode => ⟨refP_midpoint pMin pMax pMode, refP_upperPoint pMin pMax pMode⟩, refP_sub,
    refPT_bounds, fun _ => refPT_of_lt, fun density _ => refDepth_surface density, altitudeReference_seaLevel⟩

end Sys2Proof.Proofs
end

section
/-! PROOFS. Every cycle of a sensor that is ticked reaches a terminal state (70_reset_and_hazards R310, R317): each state of the cycle
waits until a deadline at most, and a tick past it brings the cycle on. -/

namespace Sys2Proof.Proofs

open Sys2Proof.Machine Sys2Proof.Laws Sys2Proof.Safety

/-- How many ticks that do something a cycle is from its end, at most. -/
def ticksLeft : ReadState → Nat
  | .Idle => 5
  | .StartConversion => 4
  | .WaitConversion => 3
  | .RequestData => 2
  | .WaitData => 1
  | .Complete | .Error => 0

/-- The time from which on a tick does something: a polling state has the deadline of a bounded wait, WaitConversion that of a
delay. -/
def cycleDeadline (S : Sensor) : Nat :=
  match S.rs with
  | .StartConversion | .RequestData | .WaitData => deadline S .measureWait
  | .WaitConversion => deadline S .measureDelay
  | .Idle | .Complete | .Error => 0

theorem ticksLeft_lt_of_mem_tickTransfers {m : ReadState × ReadState} (hm : m ∈ tickTransfers) :
    ticksLeft m.2 < ticksLeft m.1 :=
  have hlisted : ∀ m ∈ tickTransfers, ticksLeft m.2 < ticksLeft m.1 := by decide
  hlisted m hm

theorem ticksLeft_eq_zero {r : ReadState} (h : ticksLeft r = 0) : r = .Complete ∨ r = .Error := by
  cases r with
  | Complete => exact .inl rfl
  | Error => exact .inr rfl
  | Idle | StartConversion | WaitConversion | RequestData | WaitData => cases h

/-! ## A tick -/

/-- A transition to the same state, short of the end of a cycle, has no effects, and is taken before the deadline only. -/
theorem lt_cycleDeadline_of_sampled_eq {s : State} {S : Sensor} {T : Transport} (hp : S.profile = .TEMP)
    (hwritten : timersWritten S) (hactive : ticksLeft S.rs ≠ 0) (hsame : (sampled s S T).1 = S.rs) :
    (sampled s S T).2 = [] ∧ s.CLK < cycleDeadline S := by
  obtain ⟨hpolls, hdelays⟩ := hwritten
  -- a polling state is left by every poll that is not pending
  have polled : S.rs = .StartConversion ∨ S.rs = .RequestData ∨ S.rs = .WaitData → ∀ d : ReadState × List Effect,
      sampled s S T = pollTransition (pollOf s S T) S.rs d → d.1 ≠ S.rs →
      (sampled s S T).2 = [] ∧ s.CLK < deadline S .measureWait := by
    intro hrs d hd hleft
    rw [hd] at hsame ⊢
    cases hq : pollOf s S T with
    | Pending => exact ⟨rfl, lt_of_pollOf_eq_pending (hpolls hrs) hq⟩
    | Done => rw [hq] at hsame; exact absurd hsame hleft
    | Failed | TimedOut =>
      rw [hq] at hsame
      rw [← show ReadState.Error = S.rs from hsame] at hactive
      exact absurd rfl hactive
  cases hrs : S.rs with
  | Idle => rw [sampled_idle T hrs hp, hrs] at hsame; cases hsame
  | StartConversion =>
    rw [cycleDeadline, hrs]
    exact polled (.inl hrs) _ (hrs ▸ sampled_startConversion T hrs) (hrs ▸ nofun)
  | WaitConversion =>
    obtain ⟨t0, ht⟩ := Option.ne_none_iff_exists'.mp (hdelays hrs)
    rw [cycleDeadline, hrs]
    rw [sampled_waitConversion T hrs hp, ht, elapsed_some] at hsame ⊢
    by_cases hdue : 10 ≤ s.CLK - t0
    · rw [if_pos hdue, hrs] at hsame; cases hsame
    · simp only [if_neg hdue, deadline, ht, hp, Option.getD_some, Profile.tConvMin]
      exact ⟨trivial, by omega⟩
  | RequestData =>
    rw [cycleDeadline, hrs]
    exact polled (.inr (.inl hrs)) _ (hrs ▸ sampled_requestData T hrs) (hrs ▸ nofun)
  | WaitData =>
    rw [cycleDeadline, hrs]
    exact polled (.inr (.inr hrs)) _ (hrs ▸ sampled_waitData T hrs) (hrs ▸ nofun)
  | Complete | Error => rw [hrs] at hactive; exact absurd rfl hactive

/-- After a tick the pc is the transition's. -/
theorem advanceWith_pc {report : ReadState → Result} {k : Nat} {s t : State} {S S' : Sensor} {T : Transport}
    (h : Has s k S T) (hp : S.profile = .TEMP) (hstep : advanceWith report k s = .next t) (hS' : t.sensors[k]? = some S') :
    S'.rs = (sampled s S T).1 := by
  obtain ⟨u, -, ht⟩ := andThen_next ((advanceWith_of report h.1 hp h.2).symm.trans hstep)
  cases ht
  obtain ⟨U, -, rfl⟩ : ∃ U, u.sensors[k]? = some U ∧ { U with rs := (sampled s S T).1 } = S' := by simpa using hS'
  rfl

/-- A tick that keeps the pc of a sensor inside a cycle changes nothing of it, and comes before the deadline. -/
theorem advanceWith_waiting {report : ReadState → Result} {k : Nat} {s t : State} {S S' : Sensor} (hs : MachineInv s)
    (hS : s.sensors[k]? = some S) (hp : S.profile = .TEMP) (hactive : ticksLeft S.rs ≠ 0)
    (hstep : advanceWith report k s = .next t) (hS' : t.sensors[k]? = some S') (hsame : S'.rs = S.rs) :
    S' = S ∧ s.CLK < cycleDeadline S := by
  have hsound := sensorSound_of hs hS
  obtain ⟨T, hT⟩ : ∃ T, s.buses[S.bus]? = some T := ⟨_, List.getElem?_eq_getElem hsound.bus⟩
  have hpc : (sampled s S T).1 = S.rs := (advanceWith_pc ⟨hS, hT⟩ hp hstep hS').symm.trans hsame
  obtain ⟨heffects, hbefore⟩ := lt_cycleDeadline_of_sampled_eq hp hsound.timers hactive hpc
  cases hstep.symm.trans (tickAnswers_quiet ⟨hS, hT⟩ hp (Prod.ext hpc heffects) report)
  exact ⟨Option.some.inj (hS'.symm.trans hS), hbefore⟩

/-- A step that takes an operation executes it. -/
theorem step_taken {s : State} {i : Instr} (hF : s.FAULT = false) (h : taken s = some i) :
    ∃ rest, step s = exec i { s with script := rest } := by
  unfold taken at h
  split at h
  · next c rest hB hscript =>
    split at h
    · next j left hdecode =>
      cases h
      exact ⟨_, step_host hF hB hscript hdecode⟩
    · cases h
  · cases h

/-- The same of a tick. -/
theorem step_ticks {k : Nat} {s : State} (hF : s.FAULT = false) (h : ticks k s = true) :
    ∃ report rest, step s = advanceWith report k { s with script := rest } := by
  obtain h | h : taken s = some (.advance k) ∨ taken s = some (.tick k) := by simpa [ticks] using h
  · obtain ⟨rest, hstep⟩ := step_taken hF h
    exact ⟨.readState, rest, hstep⟩
  · obtain ⟨rest, hstep⟩ := step_taken hF h
    exact ⟨fun r => .tick (tickOf r), rest, hstep⟩

/-! ## Every other step -/

/-- The step from `s` to `t` leaves sensor `k` with its deadlines. -/
def KeepsDeadlines (k : Nat) (s t : State) : Prop :=
  ∀ S S', s.sensors[k]? = some S → t.sensors[k]? = some S' → ∀ ph, deadline S' ph = deadline S ph

theorem KeepsDeadlines.of_sensors_eq {k : Nat} {s t : State} (h : t.sensors = s.sensors) : KeepsDeadlines k s t := by
  intro S S' hS hS' ph
  rw [h, hS] at hS'
  cases hS'
  rfl

/-- A step that writes another sensor, or keeps the deadlines of this one. -/
theorem KeepsDeadlines.of_modify {k j : Nat} {s t : State} {f : Sensor → Sensor} (h : t.sensors = s.sensors.modify j f)
    (hf : j = k → ∀ S ph, deadline (f S) ph = deadline S ph) : KeepsDeadlines k s t := by
  intro S S' hS hS' ph
  by_cases hk : j = k
  · obtain rfl : f S = S' := by simpa [h, hk, hS] using hS'
    exact hf hk S ph
  · obtain rfl : S = S' := by simpa [h, hk, hS] using hS'
    rfl

/-- A micro-step writes the sensor of its operation only. -/
theorem microStep_sensors {B : Blocking} {s t : State} (h : microStep B s = .next t) :
    t.sensors = s.sensors ∨ ∃ f, t.sensors = s.sensors.modify B.sensor f := by
  obtain ⟨S, T, -, -, h⟩ := microStep_next h
  obtain rfl | ⟨_, _, rfl⟩ | ⟨_, rfl⟩ | ⟨_, _, _, rfl⟩ | ⟨_, _, _, rfl⟩ | ⟨_, _, rfl⟩ | ⟨_, _, _, rfl⟩ | ⟨w, _, _, rfl⟩ |
    ⟨_, _, rfl⟩ | ⟨_, _, rfl⟩ | ⟨_, _, _, rfl⟩ | ⟨_, _, rfl⟩ := h
  · exact .inl rfl
  · exact .inr ⟨_, by simp; rfl⟩
  · exact .inl rfl
  · exact .inr ⟨_, rfl⟩
  · exact .inr ⟨_, by simp; rfl⟩
  · exact .inl rfl
  · exact .inr ⟨_, rfl⟩
  · obtain ⟨c, ok, hc⟩ := wordEnd_sensors B S T w (pollOf s S T) s
    exact .inr ⟨_, hc⟩
  · exact .inr ⟨_, rfl⟩
  · exact .inl (by simp)
  · exact .inr ⟨_, rfl⟩
  · exact .inr ⟨_, rfl⟩

/-- An operation that neither ticks a sensor nor begins to block on it. -/
theorem exec_keepsDeadlines {k : Nat} {i : Instr} {s t : State} {rest : List Line} (ht : taken s = some i)
    (hw : i.wellFormed = true) (htick : ticks k s = false) (hblk : ¬ isBlocking k t)
    (h : exec i { s with script := rest } = .next t) : KeepsDeadlines k s t := by
  obtain ⟨r, rfl⟩ | ⟨j, r, -, rfl⟩ | ⟨j, S, -, -, -, rfl⟩ | ⟨j, report, hi, h⟩ | ⟨j, -, h⟩ | ⟨j, -, h⟩ |
    ⟨b, f, j, -, -, h⟩ := exec_next hw h
  · exact .of_sensors_eq rfl
  · exact .of_sensors_eq rfl
  · exact .of_modify rfl fun _ S ph => by cases ph <;> rfl
  · have hother : some j ≠ some k := by
      rintro ⟨⟩
      obtain rfl | rfl := hi <;> simp [ticks, ht] at htick
    intro S S' hS hS' ph
    obtain ⟨S'', hS'', -, hsame⟩ := (advanceWith_opFrame (named := none) h).sensor hS
    cases hS'.symm.trans hS''
    rw [hsame hother]
  · obtain ⟨S, T, -, -, -, -, ⟨-, rfl⟩ | ⟨-, rfl⟩⟩ := execInit_next h
    · exact .of_modify rfl fun hj => absurd ⟨_, rfl, hj⟩ hblk
    · exact .of_modify rfl fun hj => absurd ⟨_, rfl, hj⟩ hblk
  · obtain ⟨S, T, -, -, -, -, rfl⟩ := execReadBlocking_next h
    exact .of_modify rfl fun hj => absurd ⟨_, rfl, hj⟩ hblk
  · obtain ⟨T, -, -, rfl⟩ := issueFrame_next h
    exact .of_sensors_eq rfl

/-- A step that does not tick a sensor, with no blocking operation on it, leaves it with its deadlines. -/
theorem step_keepsDeadlines {k : Nat} {s t : State} (htick : ticks k s = false) (hblk : ¬ isBlocking k s)
    (hblk' : ¬ isBlocking k t) (h : step s = .next t) : KeepsDeadlines k s t := by
  obtain ⟨-, rest, rfl | ⟨d, rfl⟩ | ⟨b, c, h⟩ | ⟨i, -, ht, hw, h⟩ | ⟨p, b, -, h⟩ | ⟨v, rfl⟩ | ⟨j, q, h⟩ | ⟨B, hB, h⟩⟩ :=
    step_next h
  · exact .of_sensors_eq rfl
  · exact .of_sensors_eq rfl
  · intro S S' hS hS'
    obtain ⟨-, S'', hS'', hd⟩ := complete_keeps_deadline (s := { s with script := rest }) hS h
    cases hS'.symm.trans hS''
    exact hd
  · exact exec_keepsDeadlines ht hw htick hblk' h
  · rw [constructSensor_next h]
    intro S S' hS hS' ph
    rw [List.getElem?_append_left (List.getElem?_eq_some_iff.mp hS).1] at hS'
    cases hS'.symm.trans hS
    rfl
  · exact .of_sensors_eq rfl
  · obtain ⟨r, rfl⟩ := deriveQuantity_next h
    exact .of_sensors_eq rfl
  · obtain hsensors | ⟨f, hsensors⟩ := microStep_sensors h
    · exact .of_sensors_eq hsensors
    · exact .of_modify hsensors fun hk => absurd ⟨B, hB, hk⟩ hblk

/-! ## A run -/

/-- The TEMP sensor `k` is at `r`, where it waits at most until `d`. -/
def WaitsUntil (k : Nat) (r : ReadState) (d : Nat) (s : State) : Prop :=
  ∃ S, s.sensors[k]? = some S ∧ S.profile = .TEMP ∧ S.rs = r ∧ cycleDeadline S = d

/-- The TEMP sensor `k` has fewer than `R` ticks left. -/
def CycleMovedOn (k R : Nat) (s : State) : Prop :=
  ∃ S, s.sensors[k]? = some S ∧ S.profile = .TEMP ∧ ticksLeft S.rs < R

/-- The deadline of a cycle is one of the sensor's deadlines, by its pc. -/
theorem cycleDeadline_congr {S S' : Sensor} (hrs : S'.rs = S.rs) (h : ∀ ph, deadline S' ph = deadline S ph) :
    cycleDeadline S' = cycleDeadline S := by
  unfold cycleDeadline
  rw [hrs, h, h]

/-- A step brings a cycle that is not abandoned on, or leaves it where it is; a tick does the latter only before the deadline. -/
theorem step_waitsUntil {k d : Nat} {r : ReadState} {s t : State} (hs : MachineInv s) (hw : WaitsUntil k r d s)
    (hactive : ticksLeft r ≠ 0) (hblk : ¬ isBlocking k s) (hblk' : ¬ isBlocking k t)
    (hidle : ∀ S S', s.sensors[k]? = some S → t.sensors[k]? = some S' → S'.rs = .Idle → S.rs = .Idle)
    (h : step s = .next t) :
    CycleMovedOn k (ticksLeft r) t ∨ WaitsUntil k r d t ∧ (ticks k s = true → s.CLK < d) := by
  obtain ⟨S, hS, hp, rfl, rfl⟩ := hw
  obtain ⟨S', hS', -⟩ := step_changes h k S hS
  have hp' : S'.profile = .TEMP := (step_profile_bus h hS hS').1.trans hp
  -- the pc moves along the table, or stays
  obtain hsame | hmem : S'.rs = S.rs ∨ (S.rs, S'.rs) ∈ tickTransfers := by
    obtain hsame | ⟨-, hreset⟩ | ⟨-, hmem⟩ := onlyListedTransfers k s t S S' h hS hS'
    · exact .inl hsame
    · exact .inl (hreset.trans (hidle S S' hS hS' hreset).symm)
    · exact .inr hmem
  · right
    cases htick : ticks k s with
    | true =>
      obtain ⟨report, rest, hstep⟩ := step_ticks hs.unmarked htick
      obtain ⟨rfl, hbefore⟩ := advanceWith_waiting (machineInv_withScript hs rest) hS hp hactive (hstep.symm.trans h) hS' hsame
      exact ⟨⟨S', hS', hp, rfl, rfl⟩, fun _ => hbefore⟩
    | false =>
      have hkept := step_keepsDeadlines htick hblk hblk' h S S' hS hS'
      exact ⟨⟨S', hS', hp', hsame, cycleDeadline_congr hsame hkept⟩, nofun⟩
  · exact .inl ⟨S', hS', hp', ticksLeft_lt_of_mem_tickTransfers hmem⟩

section

variable {r : Nat → State} {feed : Nat → List Line} {k : Nat} (hrun : IsRun r feed) (h0 : MachineInv (r 0))
  (hkept : NotAbandoned k r)

include hrun h0 hkept

/-- The step from `r m`, for a cycle that waits there. -/
theorem isRun_step_waitsUntil {pc : ReadState} {d m : Nat} (hw : WaitsUntil k pc d (r m)) (hactive : ticksLeft pc ≠ 0) :
    CycleMovedOn k (ticksLeft pc) (r (m + 1)) ∨
      WaitsUntil k pc d (r (m + 1)) ∧ (ticks k (fed (feed m) (r m)) = true → (r m).CLK < d) := by
  obtain ⟨hidle, hfree⟩ := hkept
  exact step_waitsUntil (machineInv_fed (isRun_machineInv hrun h0 m) _) hw hactive (fun ⟨B, hB, hk⟩ => hfree m B hB hk)
    (fun ⟨B, hB, hk⟩ => hfree (m + 1) B hB hk) (hidle m) (hrun m)

/-- A cycle that is not brought on stands where it is. -/
theorem isRun_waitsUntil {pc : ReadState} {d n m : Nat} (hw : WaitsUntil k pc d (r n)) (hactive : ticksLeft pc ≠ 0)
    (hno : ∀ m, ¬ CycleMovedOn k (ticksLeft pc) (r m)) (hm : n ≤ m) : WaitsUntil k pc d (r m) := by
  induction m, hm using Nat.le_induction with
  | base => exact hw
  | succ m hm ih =>
    obtain hmoved | ⟨hwaits, -⟩ := isRun_step_waitsUntil hrun h0 hkept ih hactive
    · exact absurd hmoved (hno (m + 1))
    · exact hwaits

/-- It is brought on: a tick past its deadline does so. -/
theorem isRun_cycleMovedOn (hclock : ClockAdvances r) (hticks : HostKeepsTicking k r feed) {n : Nat} {S : Sensor}
    (hS : (r n).sensors[k]? = some S) (hp : S.profile = .TEMP) (hactive : ticksLeft S.rs ≠ 0) :
    ∃ m, CycleMovedOn k (ticksLeft S.rs) (r m) := by
  by_contra! hno
  obtain ⟨late, hlate⟩ := hclock (cycleDeadline S)
  obtain ⟨m, hm, htick⟩ := hticks (max n late)
  have hw := isRun_waitsUntil hrun h0 hkept ⟨S, hS, hp, rfl, rfl⟩ hactive hno (show n ≤ m by omega)
  obtain hmoved | ⟨-, hbefore⟩ := isRun_step_waitsUntil hrun h0 hkept hw hactive
  · exact hno (m + 1) hmoved
  · have hclk : (r late).CLK ≤ (r m).CLK := isRun_clock_mono hrun (by omega)
    exact absurd (hbefore htick) (Nat.not_lt.mpr (hlate.trans hclk))

/-- However many ticks are left, the end is reached. -/
theorem isRun_cycleEnds (hclock : ClockAdvances r) (hticks : HostKeepsTicking k r feed) {R n : Nat}
    (hR : CycleMovedOn k R (r n)) : ∃ m S, (r m).sensors[k]? = some S ∧ ticksLeft S.rs = 0 := by
  induction R generalizing n with
  | zero =>
    obtain ⟨S, -, -, hlt⟩ := hR
    exact absurd hlt (Nat.not_lt_zero _)
  | succ R ih =>
    obtain ⟨S, hS, hp, hlt⟩ := hR
    by_cases hend : ticksLeft S.rs = 0
    · exact ⟨n, S, hS, hend⟩
    · obtain ⟨m, S', hS', hp', hlt'⟩ := isRun_cycleMovedOn hrun h0 hkept hclock hticks hS hp hend
      exact ih ⟨S', hS', hp', by omega⟩

end

/-- Settles O31: every tick past the deadline of its state leaves fewer ticks to the end, and the run ticks again and again. -/
theorem cycleReachesTerminal : Obligations.CycleReachesTerminal := by
  intro k r feed S hrun h0 hS hp hclock hticks hkept
  obtain ⟨n, S', hS', hend⟩ := isRun_cycleEnds hrun h0 hkept hclock hticks ⟨S, hS, hp, Nat.lt_succ_self _⟩
  exact ⟨n, S', hS', ticksLeft_eq_zero hend⟩

end Sys2Proof.Proofs
end

section
/-! PROOFS. The difference of a timer is exact (70_reset_and_hazards R320). -/

namespace Sys2Proof.Proofs

open Sys2Proof.Machine Sys2Proof.Laws

/-- With a counter of `bits` bits the difference is exact below the wrap: the wraps of the clock and of the stamp cancel. -/
theorem elapsedAt_wrapped {bits stamp d : Nat} (hd : d < 2 ^ bits) :
    elapsedAt (some bits) ((stamp + d) % 2 ^ bits) (stamp % 2 ^ bits) = d := by
  have hstamp : stamp % 2 ^ bits + 2 ^ bits * (stamp / 2 ^ bits) = stamp := Nat.mod_add_div ..
  have hlt : stamp % 2 ^ bits < 2 ^ bits := Nat.mod_lt _ (Nat.two_pow_pos bits)
  calc ((stamp + d) % 2 ^ bits + (2 ^ bits - stamp % 2 ^ bits % 2 ^ bits)) % 2 ^ bits
      = (stamp + d + (2 ^ bits - stamp % 2 ^ bits)) % 2 ^ bits := by rw [Nat.mod_add_mod, Nat.mod_mod]
    _ = (d + 2 ^ bits + 2 ^ bits * (stamp / 2 ^ bits)) % 2 ^ bits := by congr 1; omega
    _ = d := by rw [Nat.add_mul_mod_self_left, Nat.add_mod_right, Nat.mod_eq_of_lt hd]

/-- Settles O57: a plain difference for the unbounded clock, and `elapsedAt_wrapped` for one that wraps. -/
theorem timerDifferenceExact : Obligations.TimerDifferenceExact := by
  refine ⟨fun s t0 d hclk => ?_, fun bits now stamp d hnow hd => ?_⟩
  · rw [elapsed_some, hclk, Nat.add_sub_cancel_left]
  · rw [hnow, elapsedAt_wrapped hd]

end Sys2Proof.Proofs
end
